-- ==== Sys2Proof/Word.lean ====
section
/-! DEFINITION. The word types of the block (00_scope.md R15): "Unsigned 8/16/32-bit integers". -/

namespace Sys2Proof

/-- A byte, `u8`. -/
abbrev Byte := BitVec 8

/-- A halfword, `u16`; a VRAM pixel is one (R24). -/
abbrev Half := BitVec 16

/-- A word, `u32`. -/
abbrev Word := BitVec 32

end Sys2Proof
end

