-- ==== Sys2Proof/Config.lean ====
section
/-! DEFINITION. What an implementation fixes (00_scope.md R14) and the free values. -/

namespace Sys2Proof.Config

/-- `RAM_SIZE`, in bytes (R14). -/
def ramSize : Nat := 2097152

/-- `VRAM_W`, in pixels (R14). -/
def vramW : Nat := 1024

/-- `VRAM_H`, in pixels (R14). -/
def vramH : Nat := 512

/-- The RAM address mask of the DMA engine, `0x1FFFFC` (R14, R63). -/
def addrMask : Word := 0x1FFFFC#32

/-- `LL_CAP`, the linked-list iteration cap: a named parameter the source leaves open, at its default 2^20 (R14, D17).
DESIGN CHOICE, log entry 5: unsafe for an implementation with another cap. -/
def llCap : Nat := 1048576

/-- `DMA_CONTROL_RESET`, a named parameter at its default (R14, D13). PRESUMED, log entry 6: unsafe. -/
def dmaControlReset : Word := 0x07654321#32

/-- `GP0_ADDR`, a named parameter at its default (R14, R79, D35). PRESUMED, log entry 7: unsafe. -/
def gp0Addr : Word := 0x1F801810#32

/-- The word that port number `port` supplies as draw number `n` when the environment has laid no word ready: a free
value, "an input under no law (a draw)" (41_dma_block_transfer.md R184, V9). Log entry 9: safe, nothing constrains it. -/
opaque devWord (port n : Nat) : BitVec 32

end Sys2Proof.Config
end

