-- ==== Sys2Proof/Syntax.lean ====
section
/-! DEFINITION. The syntax: what the block decodes (30_encoding.md R120), one constructor of `Instr` per row of
spec/opcode_table.json, with the operand formats as records. Ignored bits of a format are not part of an operand. -/

namespace Sys2Proof

/-- A DMA channel, named by its device (00_scope.md R18, `DmaPort`; 20_memory.md R77). -/
inductive Chan
  | mdecIn | mdecOut | gpu | cdRom | spu | pio | otc
  deriving DecidableEq, Repr

/-- The operation of a bus access (20_memory.md R80). -/
inductive BusOp
  | read | write
  deriving DecidableEq, Repr

/-- The width of a bus access, 1, 2 or 4 bytes (R80). -/
inductive Width
  | byte | half | word
  deriving DecidableEq, Repr

/-- The mirror a bus address is issued through (20_memory.md R75). -/
inductive Segment
  | kuseg | kseg0 | kseg1
  deriving DecidableEq, Repr

/-- The offsets of the DMA window that select no register (20_memory.md R77, 40_dma_registers.md R161). -/
inductive UnmappedOffset
  | chanC (ch : Chan)
  | off78
  | off7C
  deriving DecidableEq, Repr

/-- A host access to the bus, `BusRead(addr, n)` or `BusWrite(addr, n, v)` (R80); `data` is the data of a write. -/
structure Access where
  op : BusOp
  addr : Word
  width : Width
  data : Word
  deriving DecidableEq, Repr

/-- Format `COLOR` (30_encoding.md R109). -/
structure Color where
  r : Byte
  g : Byte
  b : Byte
  deriving DecidableEq, Repr

/-- Format `VERTEX`: a signed 11-bit position (R108). -/
structure Vertex where
  x : BitVec 11
  y : BitVec 11
  deriving DecidableEq, Repr

/-- The low half of format `TEXCOORD` (R110). -/
structure Uv where
  u : Byte
  v : Byte
  deriving DecidableEq, Repr

/-- Format `PALETTE`: the CLUT starts at VRAM `(px * 16, py)` (R111). -/
structure Palette where
  px : BitVec 6
  py : BitVec 9
  deriving DecidableEq, Repr

/-- Format `TEXPAGE` (R112), and the Gpu's `tex_page` state (10_state.md R33): base `(64 * pageX, 256 * pageY)` and the
depth, 0 P4, 1 P8, 2 D16, 3 reserved. -/
structure TexPage where
  pageX : BitVec 4
  pageY : BitVec 1
  depth : BitVec 2
  deriving DecidableEq, Repr

/-- The high half of a `TEXCOORD` word where neither a palette nor a page stands in it is ignored (R110), so the third
and fourth texcoord of a polygon are a `Uv` alone. Packet `CMD V0 V1 V2` (R118, "flat, 3"). -/
structure TriFlat where
  c : Color
  v0 : Vertex
  v1 : Vertex
  v2 : Vertex
  deriving DecidableEq, Repr

/-- Packet `CMD V0 T0 V1 T1 V2 T2` (R118, "flat textured, 3"). -/
structure TriFlatTex where
  c : Color
  v0 : Vertex
  t0 : Uv
  pal : Palette
  v1 : Vertex
  t1 : Uv
  page : TexPage
  v2 : Vertex
  t2 : Uv
  deriving DecidableEq, Repr

/-- Packet `CMD V0 V1 V2 V3` (R118, "flat, 4"). -/
structure QuadFlat where
  c : Color
  v0 : Vertex
  v1 : Vertex
  v2 : Vertex
  v3 : Vertex
  deriving DecidableEq, Repr

/-- Packet `CMD V0 T0 V1 T1 V2 T2 V3 T3` (R118, "flat textured, 4"). -/
structure QuadFlatTex where
  c : Color
  v0 : Vertex
  t0 : Uv
  pal : Palette
  v1 : Vertex
  t1 : Uv
  page : TexPage
  v2 : Vertex
  t2 : Uv
  v3 : Vertex
  t3 : Uv
  deriving DecidableEq, Repr

/-- Packet `CMD V0 C1 V1 C2 V2` (R118, "Gouraud, 3"). -/
structure TriGouraud where
  c : Color
  v0 : Vertex
  c1 : Color
  v1 : Vertex
  c2 : Color
  v2 : Vertex
  deriving DecidableEq, Repr

/-- Packet `CMD V0 T0 C1 V1 T1 C2 V2 T2` (R118, "Gouraud textured, 3"). -/
structure TriGouraudTex where
  c : Color
  v0 : Vertex
  t0 : Uv
  pal : Palette
  c1 : Color
  v1 : Vertex
  t1 : Uv
  page : TexPage
  c2 : Color
  v2 : Vertex
  t2 : Uv
  deriving DecidableEq, Repr

/-- Packet `CMD V0 C1 V1 C2 V2 C3 V3` (R118, "Gouraud, 4"). -/
structure QuadGouraud where
  c : Color
  v0 : Vertex
  c1 : Color
  v1 : Vertex
  c2 : Color
  v2 : Vertex
  c3 : Color
  v3 : Vertex
  deriving DecidableEq, Repr

/-- Packet `CMD V0 T0 C1 V1 T1 C2 V2 T2 C3 V3 T3` (R118, "Gouraud textured, 4"). -/
structure QuadGouraudTex where
  c : Color
  v0 : Vertex
  t0 : Uv
  pal : Palette
  c1 : Color
  v1 : Vertex
  t1 : Uv
  page : TexPage
  c2 : Color
  v2 : Vertex
  t2 : Uv
  c3 : Color
  v3 : Vertex
  t3 : Uv
  deriving DecidableEq, Repr

/-- Packet `CMD V S`: an untextured rectangle of variable size (R119, R113). -/
structure RectVar where
  c : Color
  v : Vertex
  w : Half
  h : Half
  deriving DecidableEq, Repr

/-- Packet `CMD V T S`: a textured rectangle of variable size (R119). -/
structure RectVarTex where
  c : Color
  v : Vertex
  t : Uv
  pal : Palette
  w : Half
  h : Half
  deriving DecidableEq, Repr

/-- Packet `CMD V`: an untextured rectangle of fixed size (R119). -/
structure RectFix where
  c : Color
  v : Vertex
  deriving DecidableEq, Repr

/-- Packet `CMD V T`: a textured rectangle of fixed size (R119). -/
structure RectFixTex where
  c : Color
  v : Vertex
  t : Uv
  pal : Palette
  deriving DecidableEq, Repr

/-- The operations the block decodes (30_encoding.md R120): register accesses (format `REG`), transfers selected by
`channel_control[i]` (format `CHCTL`; `ctl` is that word), linked-list headers (format `LLHDR`; `next` without its bit
23, which the constructor says) and GP0 packets (formats `CMD`, `ENV`). -/
inductive Instr
  /-- `DMA.WR.BASE` (R151). -/
  | dmaWrBase (ch : Chan) (v : Word)
  /-- `DMA.WR.BLOCK` (R152). -/
  | dmaWrBlock (ch : Chan) (v : Word)
  /-- `DMA.WR.CHCTL` (R153). -/
  | dmaWrChctl (ch : Chan) (v : Word)
  /-- `DMA.RD.BASE` (R156). -/
  | dmaRdBase (ch : Chan)
  /-- `DMA.RD.BLOCK` (R157). -/
  | dmaRdBlock (ch : Chan)
  /-- `DMA.RD.CHCTL` (R158). -/
  | dmaRdChctl (ch : Chan)
  /-- `DMA.WR.CONTROL` (R154). -/
  | dmaWrControl (v : Word)
  /-- `DMA.WR.INTERRUPT` (R155). -/
  | dmaWrInterrupt (v : Word)
  /-- `DMA.RD.CONTROL` (R159). -/
  | dmaRdControl
  /-- `DMA.RD.INTERRUPT` (R160). -/
  | dmaRdInterrupt
  /-- `DMA.UNMAPPED` (R161). -/
  | dmaUnmapped (seg : Segment) (off : UnmappedOffset) (op : BusOp) (v : Word)
  /-- `GP0.WR` (R79). -/
  | gp0Wr (v : Word)
  /-- `XFER.BLOCK.FROMRAM` (R188). -/
  | xferBlockFromram (ch : Chan) (ctl : Word)
  /-- `XFER.BLOCK.TORAM` (R189). -/
  | xferBlockToram (ch : Chan) (ctl : Word)
  /-- `XFER.BLOCK.OTC` (R190). -/
  | xferBlockOtc (ctl : Word)
  /-- `XFER.LIST` (R200). -/
  | xferList (ctl : Word)
  /-- `XFER.INVALID` (R180). -/
  | xferInvalid (ch : Chan) (ctl : Word)
  /-- `LL.NEXT` (R208). -/
  | llNext (size : Byte) (next : BitVec 23)
  /-- `LL.END` (R209). -/
  | llEnd (size : Byte) (next : BitVec 23)
  /-- `TRI.F` (R244). -/
  | triF (p : TriFlat)
  /-- `TRI.F.R` (R245). -/
  | triFR (p : TriFlat)
  /-- `TRI.F.S` (R246). -/
  | triFS (p : TriFlat)
  /-- `TRI.F.S.R` (R247). -/
  | triFSR (p : TriFlat)
  /-- `TRI.F.T` (R248). -/
  | triFT (p : TriFlatTex)
  /-- `TRI.F.T.R` (R249). -/
  | triFTR (p : TriFlatTex)
  /-- `TRI.F.T.S` (R250). -/
  | triFTS (p : TriFlatTex)
  /-- `TRI.F.T.S.R` (R251). -/
  | triFTSR (p : TriFlatTex)
  /-- `QUAD.F` (R252). -/
  | quadF (p : QuadFlat)
  /-- `QUAD.F.R` (R253). -/
  | quadFR (p : QuadFlat)
  /-- `QUAD.F.S` (R254). -/
  | quadFS (p : QuadFlat)
  /-- `QUAD.F.S.R` (R255). -/
  | quadFSR (p : QuadFlat)
  /-- `QUAD.F.T` (R256). -/
  | quadFT (p : QuadFlatTex)
  /-- `QUAD.F.T.R` (R257). -/
  | quadFTR (p : QuadFlatTex)
  /-- `QUAD.F.T.S` (R258). -/
  | quadFTS (p : QuadFlatTex)
  /-- `QUAD.F.T.S.R` (R259). -/
  | quadFTSR (p : QuadFlatTex)
  /-- `TRI.G` (R260). -/
  | triG (p : TriGouraud)
  /-- `TRI.G.R` (R261). -/
  | triGR (p : TriGouraud)
  /-- `TRI.G.S` (R262). -/
  | triGS (p : TriGouraud)
  /-- `TRI.G.S.R` (R263). -/
  | triGSR (p : TriGouraud)
  /-- `TRI.G.T` (R264). -/
  | triGT (p : TriGouraudTex)
  /-- `TRI.G.T.R` (R265). -/
  | triGTR (p : TriGouraudTex)
  /-- `TRI.G.T.S` (R266). -/
  | triGTS (p : TriGouraudTex)
  /-- `TRI.G.T.S.R` (R267). -/
  | triGTSR (p : TriGouraudTex)
  /-- `QUAD.G` (R268). -/
  | quadG (p : QuadGouraud)
  /-- `QUAD.G.R` (R269). -/
  | quadGR (p : QuadGouraud)
  /-- `QUAD.G.S` (R270). -/
  | quadGS (p : QuadGouraud)
  /-- `QUAD.G.S.R` (R271). -/
  | quadGSR (p : QuadGouraud)
  /-- `QUAD.G.T` (R272). -/
  | quadGT (p : QuadGouraudTex)
  /-- `QUAD.G.T.R` (R273). -/
  | quadGTR (p : QuadGouraudTex)
  /-- `QUAD.G.T.S` (R274). -/
  | quadGTS (p : QuadGouraudTex)
  /-- `QUAD.G.T.S.R` (R275). -/
  | quadGTSR (p : QuadGouraudTex)
  /-- `RECT.V` (R338). -/
  | rectV (p : RectVar)
  /-- `RECT.V.R` (R339). -/
  | rectVR (p : RectVar)
  /-- `RECT.V.S` (R340). -/
  | rectVS (p : RectVar)
  /-- `RECT.V.S.R` (R341). -/
  | rectVSR (p : RectVar)
  /-- `RECT.V.T` (R342). -/
  | rectVT (p : RectVarTex)
  /-- `RECT.V.T.R` (R343). -/
  | rectVTR (p : RectVarTex)
  /-- `RECT.V.T.S` (R344). -/
  | rectVTS (p : RectVarTex)
  /-- `RECT.V.T.S.R` (R345). -/
  | rectVTSR (p : RectVarTex)
  /-- `RECT.1` (R346). -/
  | rect1 (p : RectFix)
  /-- `RECT.1.R` (R347). -/
  | rect1R (p : RectFix)
  /-- `RECT.1.S` (R348). -/
  | rect1S (p : RectFix)
  /-- `RECT.1.S.R` (R349). -/
  | rect1SR (p : RectFix)
  /-- `RECT.1.T` (R350). -/
  | rect1T (p : RectFixTex)
  /-- `RECT.1.T.R` (R351). -/
  | rect1TR (p : RectFixTex)
  /-- `RECT.1.T.S` (R352). -/
  | rect1TS (p : RectFixTex)
  /-- `RECT.1.T.S.R` (R353). -/
  | rect1TSR (p : RectFixTex)
  /-- `RECT.8` (R354). -/
  | rect8 (p : RectFix)
  /-- `RECT.8.R` (R355). -/
  | rect8R (p : RectFix)
  /-- `RECT.8.S` (R356). -/
  | rect8S (p : RectFix)
  /-- `RECT.8.S.R` (R357). -/
  | rect8SR (p : RectFix)
  /-- `RECT.8.T` (R358). -/
  | rect8T (p : RectFixTex)
  /-- `RECT.8.T.R` (R359). -/
  | rect8TR (p : RectFixTex)
  /-- `RECT.8.T.S` (R360). -/
  | rect8TS (p : RectFixTex)
  /-- `RECT.8.T.S.R` (R361). -/
  | rect8TSR (p : RectFixTex)
  /-- `RECT.16` (R362). -/
  | rect16 (p : RectFix)
  /-- `RECT.16.R` (R363). -/
  | rect16R (p : RectFix)
  /-- `RECT.16.S` (R364). -/
  | rect16S (p : RectFix)
  /-- `RECT.16.S.R` (R365). -/
  | rect16SR (p : RectFix)
  /-- `RECT.16.T` (R366). -/
  | rect16T (p : RectFixTex)
  /-- `RECT.16.T.R` (R367). -/
  | rect16TR (p : RectFixTex)
  /-- `RECT.16.T.S` (R368). -/
  | rect16TS (p : RectFixTex)
  /-- `RECT.16.T.S.R` (R369). -/
  | rect16TSR (p : RectFixTex)
  /-- `DRAWMODE` (R378). -/
  | drawmode (page : TexPage) (semi : BitVec 2)
  /-- `AREA.TL` (R379). -/
  | areaTl (x : BitVec 10) (y : BitVec 9)
  /-- `AREA.BR` (R380). -/
  | areaBr (x : BitVec 10) (y : BitVec 9)
  /-- `OFFSET` (R381). -/
  | offset (dx : BitVec 11) (dy : BitVec 11)
  /-- `LINE.*` (R375). -/
  | line (rest : BitVec 29)
  /-- `GP0.UNKNOWN.00-1F` (R376). -/
  | gp0Unknown00 (rest : BitVec 29)
  /-- `GP0.UNKNOWN.80-9F` (R376). -/
  | gp0Unknown80 (rest : BitVec 29)
  /-- `GP0.UNKNOWN.A0-BF` (R376). -/
  | gp0UnknownA0 (rest : BitVec 29)
  /-- `GP0.UNKNOWN.C0-DF` (R376). -/
  | gp0UnknownC0 (rest : BitVec 29)
  /-- `GP0.UNKNOWN.E0-FF` (R376). -/
  | gp0UnknownE0 (op : BitVec 5) (arg : BitVec 24)
  deriving DecidableEq, Repr

end Sys2Proof
end

