-- ==== Sys2Proof/Decode.lean ====
section
/-! DEFINITION. The decoder, total on whatever is given to it and rejecting by name, and after it the encoder, both
written from 30_encoding.md and 20_memory.md R75 to R79. -/

namespace Sys2Proof

/-- What a decoder is given: a bus access (format `REG`, R100), the word `channel_control[i]` of a channel (format `CHCTL`,
R103), a linked-list header (format `LLHDR`, R107), or a GP0 packet, its command word and its arguments (R114, R115). -/
inductive Encoded
  | reg (a : Access)
  | chctl (ch : Chan) (ctl : Word)
  | llhdr (h : Word)
  | gp0 (w0 : Word) (args : List Word)
  deriving DecidableEq, Repr

/-- Why a bus access is refused (60_exceptions.md R391). -/
inductive BusErrorKind
  | unmapped | unaligned | wrongWidth
  deriving DecidableEq, Repr

/-- Why a command word is refused (43_gp0_ingress.md R217). -/
inductive CommandRefusal
  | unimplemented | unknownCommand
  deriving DecidableEq, Repr

/-- Why the decoder gives no instruction. `notRegister`: the address is neither in the DMA window nor the GP0 ingress;
`busError`: it is, and the access is refused (R78, R392); `notEnabled`: `enable` of the control word is 0 (R40);
`length`: the number of words is not that of the command (R219). -/
inductive Reject
  | notRegister
  | busError (kind : BusErrorKind)
  | notEnabled
  | length (w0 : Word)
  deriving DecidableEq, Repr

/-- Which transfer a control word selects (41_dma_block_transfer.md R180). -/
inductive XferKind
  | fromRam | toRam | otc | list | invalid
  deriving DecidableEq, Repr

/-! ## Bus addresses -/

/-- The mirror masking (R75): by the top three address bits. -/
def maskAddr (addr : Word) : Word :=
  if addr.extractLsb' 29 3 = 4#3 then addr &&& 0x7FFFFFFF#32
  else if addr.extractLsb' 29 3 = 5#3 then addr &&& 0x1FFFFFFF#32
  else addr

/-- The mirror an address is issued through (R75). -/
def segmentOf (addr : Word) : Segment :=
  if addr.extractLsb' 29 3 = 4#3 then .kseg0
  else if addr.extractLsb' 29 3 = 5#3 then .kseg1
  else .kuseg

/-- The top address bits a mirror adds to an address below 0x20000000 (R75). -/
def Segment.bits : Segment → Word
  | .kuseg => 0
  | .kseg0 => 0x80000000#32
  | .kseg1 => 0xA0000000#32

/-- The channel's number (R77). -/
def Chan.num : Chan → Nat
  | .mdecIn => 0
  | .mdecOut => 1
  | .gpu => 2
  | .cdRom => 3
  | .spu => 4
  | .pio => 5
  | .otc => 6

/-- The channel of a number, `off[6:4]`; 7 selects the global registers (R100). -/
def Chan.ofNum : Nat → Option Chan
  | 0 => some .mdecIn
  | 1 => some .mdecOut
  | 2 => some .gpu
  | 3 => some .cdRom
  | 4 => some .spu
  | 5 => some .pio
  | 6 => some .otc
  | _ => none

/-- The masked address lies in the DMA window `0x1F801080..0x1F8010FF` (R77). -/
def inDmaWindow (m : Word) : Bool := m.extractLsb' 7 25 == 4128801#25

/-- The masked address lies in the word at `GP0_ADDR` (R79; the four bytes of that word, log entry 7). -/
def inGp0Word (m : Word) : Bool := m.extractLsb' 2 30 == Config.gp0Addr.extractLsb' 2 30

/-- The 32-bit aligned access to the DMA window as an instruction (R100, R77, R161). -/
def dmaAccess (seg : Segment) (op : BusOp) (m v : Word) : Instr :=
  match Chan.ofNum (m.extractLsb' 4 3).toNat, (m.extractLsb' 2 2).toNat, op with
  | some ch, 0, .write => .dmaWrBase ch v
  | some ch, 0, .read => .dmaRdBase ch
  | some ch, 1, .write => .dmaWrBlock ch v
  | some ch, 1, .read => .dmaRdBlock ch
  | some ch, 2, .write => .dmaWrChctl ch v
  | some ch, 2, .read => .dmaRdChctl ch
  | some ch, _, .write => .dmaUnmapped seg (.chanC ch) .write v
  | some ch, _, .read => .dmaUnmapped seg (.chanC ch) .read 0
  | none, 0, .write => .dmaWrControl v
  | none, 0, .read => .dmaRdControl
  | none, 1, .write => .dmaWrInterrupt v
  | none, 1, .read => .dmaRdInterrupt
  | none, 2, .write => .dmaUnmapped seg .off78 .write v
  | none, 2, .read => .dmaUnmapped seg .off78 .read 0
  | none, _, .write => .dmaUnmapped seg .off7C .write v
  | none, _, .read => .dmaUnmapped seg .off7C .read 0

/-- A bus access as an instruction. In the DMA window and at the GP0 ingress the width is checked first, then the
alignment (R78, R398); a read of the GP0 ingress is unmapped (V7 of 93_implementation_defined.md). -/
def decodeReg (a : Access) : Except Reject Instr :=
  let m := maskAddr a.addr
  if inDmaWindow m then
    if a.width ≠ .word then .error (.busError .wrongWidth)
    else if m.extractLsb' 0 2 ≠ 0#2 then .error (.busError .unaligned)
    else .ok (dmaAccess (segmentOf a.addr) a.op m a.data)
  else if inGp0Word m then
    if a.width ≠ .word then .error (.busError .wrongWidth)
    else if m.extractLsb' 0 2 ≠ 0#2 then .error (.busError .unaligned)
    else
      match a.op with
      | .read => .error (.busError .unmapped)
      | .write => .ok (.gp0Wr a.data)
  else .error .notRegister

/-! ## Transfers and list headers -/

/-- The transfer that a control word selects on a channel (R180; the Otc channel's block transfer is R190's). -/
def selectXfer (ch : Chan) (ctl : Word) : XferKind :=
  match (ctl.extractLsb' 9 2).toNat with
  | 3 => .invalid
  | 2 => if ch = .gpu ∧ ctl.getLsbD 0 = true then .list else .invalid
  | _ =>
    if ch = .otc then .otc
    else if ctl.getLsbD 0 then .fromRam
    else .toRam

/-- The control word of a channel as an instruction (R103, R180). Whether the channel is active (R40) is the trigger's
business (R162), not the decoder's; `enable = 0` is no encoding of a transfer. -/
def decodeChctl (ch : Chan) (ctl : Word) : Except Reject Instr :=
  if ctl.getLsbD 24 then
    match selectXfer ch ctl with
    | .fromRam => .ok (.xferBlockFromram ch ctl)
    | .toRam => .ok (.xferBlockToram ch ctl)
    | .otc => .ok (.xferBlockOtc ctl)
    | .list => .ok (.xferList ctl)
    | .invalid => .ok (.xferInvalid ch ctl)
  else .error .notEnabled

/-- A linked-list header as an instruction (R107, R204): bit 23 ends the list. -/
def decodeHeader (h : Word) : Instr :=
  if h.getLsbD 23 then .llEnd (h.extractLsb' 24 8) (h.extractLsb' 0 23)
  else .llNext (h.extractLsb' 24 8) (h.extractLsb' 0 23)

/-! ## GP0 words -/

/-- The command byte `op = w[31:24]` (R114). -/
def opOf (w0 : Word) : BitVec 8 := w0.extractLsb' 24 8

/-- Format `COLOR` (R109). -/
def Color.ofWord (w : Word) : Color := ⟨w.extractLsb' 0 8, w.extractLsb' 8 8, w.extractLsb' 16 8⟩

/-- Format `VERTEX` (R108): bits 15..11 and 31..27 are ignored. -/
def Vertex.ofWord (w : Word) : Vertex := ⟨w.extractLsb' 0 11, w.extractLsb' 16 11⟩

/-- The low half of format `TEXCOORD` (R110). -/
def Uv.ofWord (w : Word) : Uv := ⟨w.extractLsb' 0 8, w.extractLsb' 8 8⟩

/-- Format `PALETTE` in the high half of a word (R111): attribute bit 15 is ignored. -/
def Palette.ofWord (w : Word) : Palette := ⟨w.extractLsb' 16 6, w.extractLsb' 22 9⟩

/-- Format `TEXPAGE` in the high half of a word (R112): attribute bits 6..5 and 15..9 are ignored. -/
def TexPage.ofWord (w : Word) : TexPage := ⟨w.extractLsb' 16 4, w.extractLsb' 20 1, w.extractLsb' 23 2⟩

/-- The page fields of `DRAWMODE` (R117). -/
def TexPage.ofDrawMode (w : Word) : TexPage := ⟨w.extractLsb' 0 4, w.extractLsb' 4 1, w.extractLsb' 7 2⟩

/-- The packet "flat, 3" (R118). -/
def TriFlat.ofWords (w0 : Word) : List Word → Option TriFlat
  | [a1, a2, a3] => some ⟨Color.ofWord w0, Vertex.ofWord a1, Vertex.ofWord a2, Vertex.ofWord a3⟩
  | _ => none

/-- The packet "flat textured, 3" (R118). -/
def TriFlatTex.ofWords (w0 : Word) : List Word → Option TriFlatTex
  | [a1, a2, a3, a4, a5, a6] => some ⟨Color.ofWord w0, Vertex.ofWord a1, Uv.ofWord a2, Palette.ofWord a2, Vertex.ofWord a3, Uv.ofWord a4, TexPage.ofWord a4, Vertex.ofWord a5, Uv.ofWord a6⟩
  | _ => none

/-- The packet "flat, 4" (R118). -/
def QuadFlat.ofWords (w0 : Word) : List Word → Option QuadFlat
  | [a1, a2, a3, a4] => some ⟨Color.ofWord w0, Vertex.ofWord a1, Vertex.ofWord a2, Vertex.ofWord a3, Vertex.ofWord a4⟩
  | _ => none

/-- The packet "flat textured, 4" (R118). -/
def QuadFlatTex.ofWords (w0 : Word) : List Word → Option QuadFlatTex
  | [a1, a2, a3, a4, a5, a6, a7, a8] => some ⟨Color.ofWord w0, Vertex.ofWord a1, Uv.ofWord a2, Palette.ofWord a2, Vertex.ofWord a3, Uv.ofWord a4, TexPage.ofWord a4, Vertex.ofWord a5, Uv.ofWord a6, Vertex.ofWord a7, Uv.ofWord a8⟩
  | _ => none

/-- The packet "Gouraud, 3" (R118). -/
def TriGouraud.ofWords (w0 : Word) : List Word → Option TriGouraud
  | [a1, a2, a3, a4, a5] => some ⟨Color.ofWord w0, Vertex.ofWord a1, Color.ofWord a2, Vertex.ofWord a3, Color.ofWord a4, Vertex.ofWord a5⟩
  | _ => none

/-- The packet "Gouraud textured, 3" (R118). -/
def TriGouraudTex.ofWords (w0 : Word) : List Word → Option TriGouraudTex
  | [a1, a2, a3, a4, a5, a6, a7, a8] => some ⟨Color.ofWord w0, Vertex.ofWord a1, Uv.ofWord a2, Palette.ofWord a2, Color.ofWord a3, Vertex.ofWord a4, Uv.ofWord a5, TexPage.ofWord a5, Color.ofWord a6, Vertex.ofWord a7, Uv.ofWord a8⟩
  | _ => none

/-- The packet "Gouraud, 4" (R118). -/
def QuadGouraud.ofWords (w0 : Word) : List Word → Option QuadGouraud
  | [a1, a2, a3, a4, a5, a6, a7] => some ⟨Color.ofWord w0, Vertex.ofWord a1, Color.ofWord a2, Vertex.ofWord a3, Color.ofWord a4, Vertex.ofWord a5, Color.ofWord a6, Vertex.ofWord a7⟩
  | _ => none

/-- The packet "Gouraud textured, 4" (R118). -/
def QuadGouraudTex.ofWords (w0 : Word) : List Word → Option QuadGouraudTex
  | [a1, a2, a3, a4, a5, a6, a7, a8, a9, a10, a11] => some ⟨Color.ofWord w0, Vertex.ofWord a1, Uv.ofWord a2, Palette.ofWord a2, Color.ofWord a3, Vertex.ofWord a4, Uv.ofWord a5, TexPage.ofWord a5, Color.ofWord a6, Vertex.ofWord a7, Uv.ofWord a8, Color.ofWord a9, Vertex.ofWord a10, Uv.ofWord a11⟩
  | _ => none

/-- The packet "CMD V S" (R119). -/
def RectVar.ofWords (w0 : Word) : List Word → Option RectVar
  | [a1, a2] => some ⟨Color.ofWord w0, Vertex.ofWord a1, a2.extractLsb' 0 16, a2.extractLsb' 16 16⟩
  | _ => none

/-- The packet "CMD V T S" (R119). -/
def RectVarTex.ofWords (w0 : Word) : List Word → Option RectVarTex
  | [a1, a2, a3] => some ⟨Color.ofWord w0, Vertex.ofWord a1, Uv.ofWord a2, Palette.ofWord a2, a3.extractLsb' 0 16, a3.extractLsb' 16 16⟩
  | _ => none

/-- The packet "CMD V" (R119). -/
def RectFix.ofWords (w0 : Word) : List Word → Option RectFix
  | [a1] => some ⟨Color.ofWord w0, Vertex.ofWord a1⟩
  | _ => none

/-- The packet "CMD V T" (R119). -/
def RectFixTex.ofWords (w0 : Word) : List Word → Option RectFixTex
  | [a1, a2] => some ⟨Color.ofWord w0, Vertex.ofWord a1, Uv.ofWord a2, Palette.ofWord a2⟩
  | _ => none

/-- `PacketLen(w0)`, the number of words of the packet that `w0` begins, or why it is refused (43_gp0_ingress.md R217). -/
def packetLen (w0 : Word) : Except CommandRefusal Nat :=
  let op := opOf w0
  match (op.extractLsb' 5 3).toNat with
  | 1 =>
    let n := if op.getLsbD 3 then 4 else 3
    .ok (1 + n * (if op.getLsbD 2 then 2 else 1) + (if op.getLsbD 4 then n - 1 else 0))
  | 3 =>
    .ok (2 + (if op.getLsbD 2 then 1 else 0) + (if op.extractLsb' 3 2 = 0#2 then 1 else 0))
  | 2 => .error .unimplemented
  | _ =>
    if op = 0xE1#8 ∨ op = 0xE3#8 ∨ op = 0xE4#8 ∨ op = 0xE5#8 then .ok 1
    else .error .unknownCommand

/-- The instruction of a refused command word: the Line family (48_line_env.md R375) and the unknown ranges (R376). The
refusal happens when the command word arrives (R121). -/
def refusedCommand (w0 : Word) : Instr :=
  match (w0.extractLsb' 29 3).toNat with
  | 2 => .line (w0.extractLsb' 0 29)
  | 4 => .gp0Unknown80 (w0.extractLsb' 0 29)
  | 5 => .gp0UnknownA0 (w0.extractLsb' 0 29)
  | 6 => .gp0UnknownC0 (w0.extractLsb' 0 29)
  | 7 => .gp0UnknownE0 (w0.extractLsb' 24 5) (w0.extractLsb' 0 24)
  | _ => .gp0Unknown00 (w0.extractLsb' 0 29)

/-- One argument list that must be empty: the environment commands are one word each (R377). -/
def oneWord (i : Instr) : List Word → Option Instr
  | [] => some i
  | _ :: _ => none

/-- The packet as an instruction, by its command byte (R120); none where the number of arguments is not the command's.
A refused command word is its own instruction whatever follows it, because it is refused before any argument (R121). -/
def commandOf (w0 : Word) (args : List Word) : Option Instr :=
  match (opOf w0).toNat with
  | 0x20 => (TriFlat.ofWords w0 args).map .triF
  | 0x21 => (TriFlat.ofWords w0 args).map .triFR
  | 0x22 => (TriFlat.ofWords w0 args).map .triFS
  | 0x23 => (TriFlat.ofWords w0 args).map .triFSR
  | 0x24 => (TriFlatTex.ofWords w0 args).map .triFT
  | 0x25 => (TriFlatTex.ofWords w0 args).map .triFTR
  | 0x26 => (TriFlatTex.ofWords w0 args).map .triFTS
  | 0x27 => (TriFlatTex.ofWords w0 args).map .triFTSR
  | 0x28 => (QuadFlat.ofWords w0 args).map .quadF
  | 0x29 => (QuadFlat.ofWords w0 args).map .quadFR
  | 0x2a => (QuadFlat.ofWords w0 args).map .quadFS
  | 0x2b => (QuadFlat.ofWords w0 args).map .quadFSR
  | 0x2c => (QuadFlatTex.ofWords w0 args).map .quadFT
  | 0x2d => (QuadFlatTex.ofWords w0 args).map .quadFTR
  | 0x2e => (QuadFlatTex.ofWords w0 args).map .quadFTS
  | 0x2f => (QuadFlatTex.ofWords w0 args).map .quadFTSR
  | 0x30 => (TriGouraud.ofWords w0 args).map .triG
  | 0x31 => (TriGouraud.ofWords w0 args).map .triGR
  | 0x32 => (TriGouraud.ofWords w0 args).map .triGS
  | 0x33 => (TriGouraud.ofWords w0 args).map .triGSR
  | 0x34 => (TriGouraudTex.ofWords w0 args).map .triGT
  | 0x35 => (TriGouraudTex.ofWords w0 args).map .triGTR
  | 0x36 => (TriGouraudTex.ofWords w0 args).map .triGTS
  | 0x37 => (TriGouraudTex.ofWords w0 args).map .triGTSR
  | 0x38 => (QuadGouraud.ofWords w0 args).map .quadG
  | 0x39 => (QuadGouraud.ofWords w0 args).map .quadGR
  | 0x3a => (QuadGouraud.ofWords w0 args).map .quadGS
  | 0x3b => (QuadGouraud.ofWords w0 args).map .quadGSR
  | 0x3c => (QuadGouraudTex.ofWords w0 args).map .quadGT
  | 0x3d => (QuadGouraudTex.ofWords w0 args).map .quadGTR
  | 0x3e => (QuadGouraudTex.ofWords w0 args).map .quadGTS
  | 0x3f => (QuadGouraudTex.ofWords w0 args).map .quadGTSR
  | 0x60 => (RectVar.ofWords w0 args).map .rectV
  | 0x61 => (RectVar.ofWords w0 args).map .rectVR
  | 0x62 => (RectVar.ofWords w0 args).map .rectVS
  | 0x63 => (RectVar.ofWords w0 args).map .rectVSR
  | 0x64 => (RectVarTex.ofWords w0 args).map .rectVT
  | 0x65 => (RectVarTex.ofWords w0 args).map .rectVTR
  | 0x66 => (RectVarTex.ofWords w0 args).map .rectVTS
  | 0x67 => (RectVarTex.ofWords w0 args).map .rectVTSR
  | 0x68 => (RectFix.ofWords w0 args).map .rect1
  | 0x69 => (RectFix.ofWords w0 args).map .rect1R
  | 0x6a => (RectFix.ofWords w0 args).map .rect1S
  | 0x6b => (RectFix.ofWords w0 args).map .rect1SR
  | 0x6c => (RectFixTex.ofWords w0 args).map .rect1T
  | 0x6d => (RectFixTex.ofWords w0 args).map .rect1TR
  | 0x6e => (RectFixTex.ofWords w0 args).map .rect1TS
  | 0x6f => (RectFixTex.ofWords w0 args).map .rect1TSR
  | 0x70 => (RectFix.ofWords w0 args).map .rect8
  | 0x71 => (RectFix.ofWords w0 args).map .rect8R
  | 0x72 => (RectFix.ofWords w0 args).map .rect8S
  | 0x73 => (RectFix.ofWords w0 args).map .rect8SR
  | 0x74 => (RectFixTex.ofWords w0 args).map .rect8T
  | 0x75 => (RectFixTex.ofWords w0 args).map .rect8TR
  | 0x76 => (RectFixTex.ofWords w0 args).map .rect8TS
  | 0x77 => (RectFixTex.ofWords w0 args).map .rect8TSR
  | 0x78 => (RectFix.ofWords w0 args).map .rect16
  | 0x79 => (RectFix.ofWords w0 args).map .rect16R
  | 0x7a => (RectFix.ofWords w0 args).map .rect16S
  | 0x7b => (RectFix.ofWords w0 args).map .rect16SR
  | 0x7c => (RectFixTex.ofWords w0 args).map .rect16T
  | 0x7d => (RectFixTex.ofWords w0 args).map .rect16TR
  | 0x7e => (RectFixTex.ofWords w0 args).map .rect16TS
  | 0x7f => (RectFixTex.ofWords w0 args).map .rect16TSR
  | 0xe1 => oneWord (.drawmode (TexPage.ofDrawMode w0) (w0.extractLsb' 5 2)) args
  | 0xe3 => oneWord (.areaTl (w0.extractLsb' 0 10) (w0.extractLsb' 10 9)) args
  | 0xe4 => oneWord (.areaBr (w0.extractLsb' 0 10) (w0.extractLsb' 10 9)) args
  | 0xe5 => oneWord (.offset (w0.extractLsb' 0 11) (w0.extractLsb' 11 11)) args
  | _ => some (refusedCommand w0)

/-- A GP0 packet as an instruction (R114 to R121, R219). -/
def decodeGp0 (w0 : Word) (args : List Word) : Except Reject Instr :=
  match commandOf w0 args with
  | some i => .ok i
  | none => .error (.length w0)

/-- The decoder. -/
def decode : Encoded → Except Reject Instr
  | .reg a => decodeReg a
  | .chctl ch ctl => decodeChctl ch ctl
  | .llhdr h => .ok (decodeHeader h)
  | .gp0 w0 args => decodeGp0 w0 args

/-! ## The encoder -/

/-- A colour word with `hi` in bits 31..24: the command byte of a `CMD` word (R114), or 0 (R109). -/
def Color.toWord (c : Color) (hi : BitVec 8) : Word := hi ++ c.b ++ c.g ++ c.r

/-- Format `VERTEX` (R108). -/
def Vertex.toWord (v : Vertex) : Word := 0#5 ++ v.y ++ 0#5 ++ v.x

/-- A `TEXCOORD` word whose attribute is ignored (R110). -/
def Uv.toWord (t : Uv) : Word := 0#16 ++ t.v ++ t.u

/-- A `TEXCOORD` word with a palette (R110, R111). -/
def Uv.withPalette (t : Uv) (p : Palette) : Word := 0#1 ++ p.py ++ p.px ++ t.v ++ t.u

/-- A `TEXCOORD` word with a texture page (R110, R112). -/
def Uv.withPage (t : Uv) (g : TexPage) : Word := 0#7 ++ g.depth ++ 0#2 ++ g.pageY ++ g.pageX ++ t.v ++ t.u

/-- The argument words of the packet "flat, 3" (R118). -/
def TriFlat.args (p : TriFlat) : List Word :=
  [p.v0.toWord, p.v1.toWord, p.v2.toWord]

/-- The argument words of the packet "flat textured, 3" (R118). -/
def TriFlatTex.args (p : TriFlatTex) : List Word :=
  [p.v0.toWord, p.t0.withPalette p.pal, p.v1.toWord, p.t1.withPage p.page, p.v2.toWord, p.t2.toWord]

/-- The argument words of the packet "flat, 4" (R118). -/
def QuadFlat.args (p : QuadFlat) : List Word :=
  [p.v0.toWord, p.v1.toWord, p.v2.toWord, p.v3.toWord]

/-- The argument words of the packet "flat textured, 4" (R118). -/
def QuadFlatTex.args (p : QuadFlatTex) : List Word :=
  [p.v0.toWord, p.t0.withPalette p.pal, p.v1.toWord, p.t1.withPage p.page, p.v2.toWord, p.t2.toWord, p.v3.toWord, p.t3.toWord]

/-- The argument words of the packet "Gouraud, 3" (R118). -/
def TriGouraud.args (p : TriGouraud) : List Word :=
  [p.v0.toWord, p.c1.toWord 0, p.v1.toWord, p.c2.toWord 0, p.v2.toWord]

/-- The argument words of the packet "Gouraud textured, 3" (R118). -/
def TriGouraudTex.args (p : TriGouraudTex) : List Word :=
  [p.v0.toWord, p.t0.withPalette p.pal, p.c1.toWord 0, p.v1.toWord, p.t1.withPage p.page, p.c2.toWord 0, p.v2.toWord, p.t2.toWord]

/-- The argument words of the packet "Gouraud, 4" (R118). -/
def QuadGouraud.args (p : QuadGouraud) : List Word :=
  [p.v0.toWord, p.c1.toWord 0, p.v1.toWord, p.c2.toWord 0, p.v2.toWord, p.c3.toWord 0, p.v3.toWord]

/-- The argument words of the packet "Gouraud textured, 4" (R118). -/
def QuadGouraudTex.args (p : QuadGouraudTex) : List Word :=
  [p.v0.toWord, p.t0.withPalette p.pal, p.c1.toWord 0, p.v1.toWord, p.t1.withPage p.page, p.c2.toWord 0, p.v2.toWord, p.t2.toWord, p.c3.toWord 0, p.v3.toWord, p.t3.toWord]

/-- The argument words of the packet "CMD V S" (R119). -/
def RectVar.args (p : RectVar) : List Word :=
  [p.v.toWord, (p.h ++ p.w : BitVec 32)]

/-- The argument words of the packet "CMD V T S" (R119). -/
def RectVarTex.args (p : RectVarTex) : List Word :=
  [p.v.toWord, p.t.withPalette p.pal, (p.h ++ p.w : BitVec 32)]

/-- The argument words of the packet "CMD V" (R119). -/
def RectFix.args (p : RectFix) : List Word :=
  [p.v.toWord]

/-- The argument words of the packet "CMD V T" (R119). -/
def RectFixTex.args (p : RectFixTex) : List Word :=
  [p.v.toWord, p.t.withPalette p.pal]

/-- A 32-bit access to the DMA window through the KUSEG addresses (R77, R100). -/
def regAccess (op : BusOp) (addr : Word) (v : Word) : Encoded := .reg ⟨op, addr, .word, v⟩

/-- The bus address of register `k` (0 base, 1 block, 2 control) of a channel (R77). -/
def chanAddr (ch : Chan) (k : Nat) : Word := 0x1F801080#32 + BitVec.ofNat 32 (16 * ch.num + 4 * k)

/-- The bus address, below the mirrors, of an offset that selects no register (R77, R161). -/
def UnmappedOffset.addr : UnmappedOffset → Word
  | .chanC ch => chanAddr ch 3
  | .off78 => 0x1F8010F8#32
  | .off7C => 0x1F8010FC#32

/-- The encoding of an instruction, ignored bits 0; register accesses through KUSEG where the instruction does not keep
the mirror. -/
def encode : Instr → Encoded
  | .dmaWrBase ch v => regAccess .write (chanAddr ch 0) v
  | .dmaWrBlock ch v => regAccess .write (chanAddr ch 1) v
  | .dmaWrChctl ch v => regAccess .write (chanAddr ch 2) v
  | .dmaRdBase ch => regAccess .read (chanAddr ch 0) 0
  | .dmaRdBlock ch => regAccess .read (chanAddr ch 1) 0
  | .dmaRdChctl ch => regAccess .read (chanAddr ch 2) 0
  | .dmaWrControl v => regAccess .write 0x1F8010F0#32 v
  | .dmaWrInterrupt v => regAccess .write 0x1F8010F4#32 v
  | .dmaRdControl => regAccess .read 0x1F8010F0#32 0
  | .dmaRdInterrupt => regAccess .read 0x1F8010F4#32 0
  | .dmaUnmapped seg off op v => regAccess op (seg.bits ||| off.addr) v
  | .gp0Wr v => regAccess .write Config.gp0Addr v
  | .xferBlockFromram ch ctl => .chctl ch ctl
  | .xferBlockToram ch ctl => .chctl ch ctl
  | .xferBlockOtc ctl => .chctl .otc ctl
  | .xferList ctl => .chctl .gpu ctl
  | .xferInvalid ch ctl => .chctl ch ctl
  | .llNext size next => .llhdr (size ++ 0#1 ++ next)
  | .llEnd size next => .llhdr (size ++ 1#1 ++ next)
  | .triF p => .gp0 (p.c.toWord 0x20) p.args
  | .triFR p => .gp0 (p.c.toWord 0x21) p.args
  | .triFS p => .gp0 (p.c.toWord 0x22) p.args
  | .triFSR p => .gp0 (p.c.toWord 0x23) p.args
  | .triFT p => .gp0 (p.c.toWord 0x24) p.args
  | .triFTR p => .gp0 (p.c.toWord 0x25) p.args
  | .triFTS p => .gp0 (p.c.toWord 0x26) p.args
  | .triFTSR p => .gp0 (p.c.toWord 0x27) p.args
  | .quadF p => .gp0 (p.c.toWord 0x28) p.args
  | .quadFR p => .gp0 (p.c.toWord 0x29) p.args
  | .quadFS p => .gp0 (p.c.toWord 0x2a) p.args
  | .quadFSR p => .gp0 (p.c.toWord 0x2b) p.args
  | .quadFT p => .gp0 (p.c.toWord 0x2c) p.args
  | .quadFTR p => .gp0 (p.c.toWord 0x2d) p.args
  | .quadFTS p => .gp0 (p.c.toWord 0x2e) p.args
  | .quadFTSR p => .gp0 (p.c.toWord 0x2f) p.args
  | .triG p => .gp0 (p.c.toWord 0x30) p.args
  | .triGR p => .gp0 (p.c.toWord 0x31) p.args
  | .triGS p => .gp0 (p.c.toWord 0x32) p.args
  | .triGSR p => .gp0 (p.c.toWord 0x33) p.args
  | .triGT p => .gp0 (p.c.toWord 0x34) p.args
  | .triGTR p => .gp0 (p.c.toWord 0x35) p.args
  | .triGTS p => .gp0 (p.c.toWord 0x36) p.args
  | .triGTSR p => .gp0 (p.c.toWord 0x37) p.args
  | .quadG p => .gp0 (p.c.toWord 0x38) p.args
  | .quadGR p => .gp0 (p.c.toWord 0x39) p.args
  | .quadGS p => .gp0 (p.c.toWord 0x3a) p.args
  | .quadGSR p => .gp0 (p.c.toWord 0x3b) p.args
  | .quadGT p => .gp0 (p.c.toWord 0x3c) p.args
  | .quadGTR p => .gp0 (p.c.toWord 0x3d) p.args
  | .quadGTS p => .gp0 (p.c.toWord 0x3e) p.args
  | .quadGTSR p => .gp0 (p.c.toWord 0x3f) p.args
  | .rectV p => .gp0 (p.c.toWord 0x60) p.args
  | .rectVR p => .gp0 (p.c.toWord 0x61) p.args
  | .rectVS p => .gp0 (p.c.toWord 0x62) p.args
  | .rectVSR p => .gp0 (p.c.toWord 0x63) p.args
  | .rectVT p => .gp0 (p.c.toWord 0x64) p.args
  | .rectVTR p => .gp0 (p.c.toWord 0x65) p.args
  | .rectVTS p => .gp0 (p.c.toWord 0x66) p.args
  | .rectVTSR p => .gp0 (p.c.toWord 0x67) p.args
  | .rect1 p => .gp0 (p.c.toWord 0x68) p.args
  | .rect1R p => .gp0 (p.c.toWord 0x69) p.args
  | .rect1S p => .gp0 (p.c.toWord 0x6a) p.args
  | .rect1SR p => .gp0 (p.c.toWord 0x6b) p.args
  | .rect1T p => .gp0 (p.c.toWord 0x6c) p.args
  | .rect1TR p => .gp0 (p.c.toWord 0x6d) p.args
  | .rect1TS p => .gp0 (p.c.toWord 0x6e) p.args
  | .rect1TSR p => .gp0 (p.c.toWord 0x6f) p.args
  | .rect8 p => .gp0 (p.c.toWord 0x70) p.args
  | .rect8R p => .gp0 (p.c.toWord 0x71) p.args
  | .rect8S p => .gp0 (p.c.toWord 0x72) p.args
  | .rect8SR p => .gp0 (p.c.toWord 0x73) p.args
  | .rect8T p => .gp0 (p.c.toWord 0x74) p.args
  | .rect8TR p => .gp0 (p.c.toWord 0x75) p.args
  | .rect8TS p => .gp0 (p.c.toWord 0x76) p.args
  | .rect8TSR p => .gp0 (p.c.toWord 0x77) p.args
  | .rect16 p => .gp0 (p.c.toWord 0x78) p.args
  | .rect16R p => .gp0 (p.c.toWord 0x79) p.args
  | .rect16S p => .gp0 (p.c.toWord 0x7a) p.args
  | .rect16SR p => .gp0 (p.c.toWord 0x7b) p.args
  | .rect16T p => .gp0 (p.c.toWord 0x7c) p.args
  | .rect16TR p => .gp0 (p.c.toWord 0x7d) p.args
  | .rect16TS p => .gp0 (p.c.toWord 0x7e) p.args
  | .rect16TSR p => .gp0 (p.c.toWord 0x7f) p.args
  | .drawmode page semi => .gp0 (0xE1#8 ++ 0#15 ++ page.depth ++ semi ++ page.pageY ++ page.pageX) []
  | .areaTl x y => .gp0 (0xE3#8 ++ 0#5 ++ y ++ x) []
  | .areaBr x y => .gp0 (0xE4#8 ++ 0#5 ++ y ++ x) []
  | .offset dx dy => .gp0 (0xE5#8 ++ 0#2 ++ dy ++ dx) []
  | .line rest => .gp0 (2#3 ++ rest) []
  | .gp0Unknown00 rest => .gp0 (0#3 ++ rest) []
  | .gp0Unknown80 rest => .gp0 (4#3 ++ rest) []
  | .gp0UnknownA0 rest => .gp0 (5#3 ++ rest) []
  | .gp0UnknownC0 rest => .gp0 (6#3 ++ rest) []
  | .gp0UnknownE0 op arg => .gp0 (7#3 ++ op ++ arg) []

/-! ## The words of spec/opcode_table.json -/

/-- The words after the first of a number that lays a packet out with its first word lowest. -/
def laterWords (n w : Nat) : List Word := (List.range n).map fun k => BitVec.ofNat 32 (w >>> (32 * (k + 1)))

/-- A channel on which a table word of format `CHCTL` can stand: the Gpu channel for the linked-list mode, else channel 0. -/
def tableChan (ctl : Word) : Chan := if ctl.extractLsb' 9 2 = 2#2 then .gpu else .mdecIn

/-- A word of the table read in ONE of the table's five formats. The formats overlap (the same 32 bits are a register
address, a control word, a list header and a command word), so the format is chosen by the word: an address of the DMA
window or of the GP0 ingress is a host write; a top byte 0x01 a control word; a top byte 0x00 a list header; anything
else a command word. DESIGN CHOICE, log entry 22. -/
def tableEncoded (w : Nat) : Encoded :=
  let w0 : Word := BitVec.ofNat 32 w
  if inDmaWindow w0 || inGp0Word w0 then .reg ⟨.write, w0, .word, BitVec.ofNat 32 (w >>> 32)⟩
  else
    match (opOf w0).toNat with
    | 0 => .llhdr w0
    | 1 => .chctl (tableChan w0) w0
    | _ =>
      match packetLen w0 with
      | .ok n => .gp0 w0 (laterWords (n - 1) w)
      | .error _ => .gp0 w0 []

/-- The instruction the decoder reads from the table's bits `w` of a row of `nbits` bits, every bit above them 0. -/
def decodeTableWord (nbits w : Nat) : Option Instr :=
  match decode (tableEncoded (w % 2 ^ nbits)) with
  | .ok i => some i
  | .error _ => none

end Sys2Proof
end

