-- ==== Sys2Proof/Machine/State.lean ====
section
/-! DEFINITION. The state of the block (10_state.md R22) as plain data, the outcomes, and the state after reset (R39). -/

namespace Sys2Proof.Machine

/-- One value for each of the seven channels (20_memory.md R77). -/
structure PerChan (α : Type) where
  mdecIn : α
  mdecOut : α
  gpu : α
  cdRom : α
  spu : α
  pio : α
  otc : α
  deriving DecidableEq, Repr

/-- The three registers of a channel: `base_addr` (R25, 24 bits stored), `block_control` (R26), `channel_control` (R27). -/
structure ChanRegs where
  base : BitVec 24
  block : Word
  ctl : Word
  deriving DecidableEq, Repr

/-- `draw_area` (R30): corners inclusive; the field widths keep it inside VRAM. -/
structure DrawArea where
  minX : BitVec 10
  minY : BitVec 9
  maxX : BitVec 10
  maxY : BitVec 9
  deriving DecidableEq, Repr

/-- `draw_offset` (R31): two signed 11-bit integers. -/
structure DrawOffset where
  dx : BitVec 11
  dy : BitVec 11
  deriving DecidableEq, Repr

/-- The error kinds and the information they carry (60_exceptions.md R391). `addr` of a `BusError` is the address as the
host issued it (R392). -/
inductive BlockError
  | bus (kind : BusErrorKind) (addr : Word) (width : Width) (op : BusOp)
  | invalidSyncMode (ch : Chan)
  | dmaRunaway (ch : Chan)
  | length (command : Word)
  | unimplemented (command : Word)
  | unknownCommand (command : Word)
  | reservedDepth (command : Word)
  deriving DecidableEq, Repr

/-- The outcome of an access as the host sees it (R390): success, with a data word for a read, or one error kind.
`noneYet`: no access has been made. -/
inductive AccessResult
  | noneYet
  | done
  | value (v : Word)
  | error (e : BlockError)
  deriving DecidableEq, Repr

/-- What can come from outside the block (70_reset_and_hazards.md R442): a bus access; a word vector handed to the
Rasterizer's own entry (43_gp0_ingress.md R219); the Gpu collaborator setting the drawing environment (R377); the
front-end reading a pixel (20_memory.md R73). A word vector always has a first word: the empty vector, of which R219 says
nothing because it has no `words[0]`, is no event. DESIGN CHOICE, log entry 31. -/
inductive HostEvent
  | bus (a : Access)
  | execute (w0 : Word) (args : List Word)
  | setEnv (area : DrawArea) (offset : DrawOffset) (semi : BitVec 2) (page : TexPage)
  | readPixel (x : BitVec 10) (y : BitVec 9)
  deriving DecidableEq, Repr

/-- A part of the bus address map that belongs to a unit outside the block (20_memory.md R76). -/
inductive ExternalUnit
  | expansion1
  | bios
  | cacheControl
  deriving DecidableEq, Repr

/-- The state (R22). `ram` lists the bytes and `vram` the pixels (key `y * 1024 + x`, R70) that are not zero, by rising key. -/
structure State where
  ram : List Host.Cell
  vram : List (Nat × BitVec 16)
  chans : PerChan ChanRegs
  dmaControl : Word
  /-- Bits 30..0 of `dma_interrupt` (R29); bit 31 has no storage (R46). -/
  dmaInterrupt : BitVec 31
  drawArea : DrawArea
  drawOffset : DrawOffset
  semiOp : BitVec 2
  texPage : TexPage
  gp0Buf : List Word
  /-- The cursor of a linked-list walk in progress (R35, 42_dma_linked_list.md R200); 0 when none is. Log entry 21. -/
  listAddr : Word
  /-- The events from outside not yet taken, oldest first (R442). Log entry 1. -/
  pending : List HostEvent
  /-- The outcome of the last access (R390). -/
  result : AccessResult
  /-- How many `dma_irq` events have been emitted (R36). -/
  irqEvents : Nat
  /-- The words sent to external devices, in order (41_dma_block_transfer.md R184). Log entry 10. -/
  devOut : List (Chan × Word)
  /-- The words the environment has laid ready for `DevRecv`, port by port (R184). Log entry 9. -/
  devIn : PerChan (List Word)
  /-- The MODEL's own counter of free device words drawn (log entry 9). -/
  devDraws : Nat
  /-- The MODEL's own mark of a "fault state" (60_exceptions.md R390): the first `GpuDecodeError` after which the spec
  wants nothing claimed. Log entry 3. -/
  streamFault : Option BlockError
  deriving DecidableEq, Repr

/-- Why the machine stops. -/
inductive Fault
  /-- Raised by a bus access (not by any instruction of the table) to a unit outside the block whose behaviour there the
  spec does not give: Bios, writes to Expansion-1, reads of cache control (00_scope.md R6, 20_memory.md R76). Safe: the
  run ends. Log entry 12. -/
  | outsideBlock (part : ExternalUnit) (a : Access)
  deriving DecidableEq, Repr

/-- Why the machine has no meaning for an instruction. -/
inductive Refusal
  /-- Raised by an arm of `exec` whose instruction has no meaning yet. Safe: the run ends. -/
  | notModelled (mnemonic : String)
  deriving DecidableEq, Repr

/-- What an operation answers. -/
abbrev Out := Host.Outcome State Fault Refusal

/-- The registers of a channel after reset (R39). -/
def ChanRegs.reset : ChanRegs := ⟨0, 0, 0⟩

/-- The state after reset (R39, 70_reset_and_hazards.md R431): the power-on construction, nothing pending. -/
def State.reset : State where
  ram := []
  vram := []
  chans := ⟨.reset, .reset, .reset, .reset, .reset, .reset, .reset⟩
  dmaControl := Config.dmaControlReset
  dmaInterrupt := 0
  drawArea := ⟨0, 0, 0, 0⟩
  drawOffset := ⟨0, 0⟩
  semiOp := 0
  texPage := ⟨0, 0, 0⟩
  gp0Buf := []
  listAddr := 0
  pending := []
  result := .noneYet
  irqEvents := 0
  devOut := []
  devIn := ⟨[], [], [], [], [], [], []⟩
  devDraws := 0
  streamFault := none

end Sys2Proof.Machine
end

