-- ==== Sys2Proof/Machine/Ops.lean ====
section
/-! DEFINITION. The named operations over memory and registers, and taking an error. -/

namespace Sys2Proof.Machine

/-! ## Sparse memory: a list of (key, value) pairs, an unlisted key reading 0 (R23, R24, R39) -/

/-- The value at a key; a key that is not listed reads 0 (RAM is "zero-initialized", R23; VRAM is 0 by R24). -/
def cellRead {w : Nat} (m : List (Nat × BitVec w)) (k : Nat) : BitVec w :=
  match m with
  | [] => 0
  | (k', v) :: t => if k' = k then v else cellRead t k

/-- The list without a key. -/
def cellErase {w : Nat} (m : List (Nat × BitVec w)) (k : Nat) : List (Nat × BitVec w) :=
  match m with
  | [] => []
  | (k', v) :: t => if k' = k then cellErase t k else (k', v) :: cellErase t k

/-- The list with a value at a key, in its place by rising key. -/
def cellInsert {w : Nat} (m : List (Nat × BitVec w)) (k : Nat) (v : BitVec w) : List (Nat × BitVec w) :=
  match m with
  | [] => [(k, v)]
  | (k', v') :: t =>
    if k < k' then (k, v) :: (k', v') :: t
    else if k = k' then (k, v) :: t
    else (k', v') :: cellInsert t k v

/-- Write a value at a key: writing 0, which an unlisted key reads as, removes the entry. -/
def cellWrite {w : Nat} (m : List (Nat × BitVec w)) (k : Nat) (v : BitVec w) : List (Nat × BitVec w) :=
  if v = 0 then cellErase m k else cellInsert m k v

/-- The canonical form: keys strictly rising and below `bound`, no entry 0. -/
def cellsWf {w : Nat} (bound : Nat) : List (Nat × BitVec w) → Bool
  | [] => true
  | [(k, v)] => decide (k < bound) && v != 0
  | (k, v) :: (k', v') :: t => decide (k < k') && v != 0 && cellsWf bound ((k', v') :: t)

/-- RAM is in canonical form. -/
def Memory.wf (m : List Host.Cell) : Bool := cellsWf Config.ramSize m

/-- VRAM is in canonical form. -/
def Vram.wf (m : List (Nat × BitVec 16)) : Bool := cellsWf (Config.vramW * Config.vramH) m

/-! ## RAM (20_memory.md R61 to R66) -/

/-- One byte of RAM at an offset (R62). -/
def ramRead8 (m : List Host.Cell) (a : Nat) : Byte := cellRead m a

/-- Two bytes, low byte first (R61). -/
def ramRead16 (m : List Host.Cell) (a : Nat) : Half := ramRead8 m (a + 1) ++ ramRead8 m a

/-- `RamRead32(a)` (R63): four bytes, low byte first (R61). -/
def ramRead32 (m : List Host.Cell) (a : Nat) : Word :=
  ramRead8 m (a + 3) ++ ramRead8 m (a + 2) ++ ramRead8 m (a + 1) ++ ramRead8 m a

/-- Store one byte (R62). -/
def ramWrite8 (m : List Host.Cell) (a : Nat) (v : Byte) : List Host.Cell := cellWrite m a v

/-- Store two bytes, low byte first (R61). -/
def ramWrite16 (m : List Host.Cell) (a : Nat) (v : Half) : List Host.Cell :=
  ramWrite8 (ramWrite8 m a (v.extractLsb' 0 8)) (a + 1) (v.extractLsb' 8 8)

/-- `RamWrite32(a, v)` (R63): four bytes, low byte first (R61). -/
def ramWrite32 (m : List Host.Cell) (a : Nat) (v : Word) : List Host.Cell :=
  ramWrite8 (ramWrite8 (ramWrite8 (ramWrite8 m a (v.extractLsb' 0 8)) (a + 1) (v.extractLsb' 8 8))
    (a + 2) (v.extractLsb' 16 8)) (a + 3) (v.extractLsb' 24 8)

/-- An address of the DMA engine, masked into RAM and aligned: `addr & 0x1FFFFC` (R63, R183, R201). -/
def dmaAddr (a : Word) : Word := a &&& Config.addrMask

/-! ## VRAM (20_memory.md R70 to R73) -/

/-- The key of the pixel at `(x mod 1024, y mod 512)` (R70, R71). -/
def vramKey (x y : Nat) : Nat := (y % Config.vramH) * Config.vramW + x % Config.vramW

/-- `VramRead16(x, y)` (R71). -/
def vramRead (m : List (Nat × BitVec 16)) (x y : Nat) : Half := cellRead m (vramKey x y)

/-- `VramWrite16(x, y, v)` (R71). -/
def vramWrite (m : List (Nat × BitVec 16)) (x y : Nat) (v : Half) : List (Nat × BitVec 16) :=
  cellWrite m (vramKey x y) v

/-! ## Channels -/

/-- The value of a channel. -/
def PerChan.get {α : Type} (p : PerChan α) : Chan → α
  | .mdecIn => p.mdecIn
  | .mdecOut => p.mdecOut
  | .gpu => p.gpu
  | .cdRom => p.cdRom
  | .spu => p.spu
  | .pio => p.pio
  | .otc => p.otc

/-- The values with one channel's replaced. -/
def PerChan.set {α : Type} (p : PerChan α) (ch : Chan) (v : α) : PerChan α :=
  match ch with
  | .mdecIn => { p with mdecIn := v }
  | .mdecOut => { p with mdecOut := v }
  | .gpu => { p with gpu := v }
  | .cdRom => { p with cdRom := v }
  | .spu => { p with spu := v }
  | .pio => { p with pio := v }
  | .otc => { p with otc := v }

/-- The registers of channel `ch`. -/
def State.chan (s : State) (ch : Chan) : ChanRegs := s.chans.get ch

/-- Store the registers of channel `ch`. -/
def State.setChan (s : State) (ch : Chan) (r : ChanRegs) : State := { s with chans := s.chans.set ch r }

/-- Store `base_addr[ch]` (R25). -/
def State.setBase (s : State) (ch : Chan) (v : BitVec 24) : State := s.setChan ch { s.chan ch with base := v }

/-- Store `block_control[ch]` (R26). -/
def State.setBlock (s : State) (ch : Chan) (v : Word) : State := s.setChan ch { s.chan ch with block := v }

/-- Store `channel_control[ch]` (R27). -/
def State.setCtl (s : State) (ch : Chan) (v : Word) : State := s.setChan ch { s.chan ch with ctl := v }

/-! ## Outcomes and errors (60_exceptions.md R390, R399) -/

/-- The access succeeds and carries no data. -/
def State.done (s : State) : State := { s with result := .done }

/-- The access succeeds with a data word (R390). -/
def State.answer (s : State) (v : Word) : State := { s with result := .value v }

/-- `raise e` (R390): the error is the outcome of the access, what has been done so far stays, and nothing is saved
(R397, R399). There is no return from it: the host issues its next access. -/
def State.raise (s : State) (e : BlockError) : State := { s with result := .error e }

/-- Mark a fault state (R390): the first error after which the spec wants nothing claimed stays marked. Log entry 3. -/
def State.markFault (s : State) (e : BlockError) : State :=
  { s with streamFault := match s.streamFault with
      | some e' => some e'
      | none => some e }

/-- The access has ended in an error. -/
def AccessResult.isError : AccessResult → Bool
  | .error _ => true
  | .noneYet => false
  | .done => false
  | .value _ => false

/-- The error is a `GpuDecodeError` (R391). -/
def BlockError.isGpuDecode : BlockError → Bool
  | .length _ => true
  | .unimplemented _ => true
  | .unknownCommand _ => true
  | .reservedDepth _ => true
  | .bus _ _ _ _ => false
  | .invalidSyncMode _ => false
  | .dmaRunaway _ => false

/-- Go on with `f` unless the operation so far has raised an error or stopped (R390: "the operation stops at that point"). -/
def thenIfOk (o : Out) (f : State → Out) : Out :=
  match o with
  | .next s => if s.result.isError then .next s else f s
  | .fault r => .fault r
  | .refused r => .refused r

/-- Apply a state update to a next state. -/
def mapNext (o : Out) (f : State → State) : Out :=
  match o with
  | .next s => .next (f s)
  | .fault r => .fault r
  | .refused r => .refused r

/-! ## Devices (41_dma_block_transfer.md R184) -/

/-- `DevSend(p, w)` to an external device: an output event recorded in order. -/
def devSend (ch : Chan) (w : Word) (s : State) : State := { s with devOut := s.devOut ++ [(ch, w)] }

/-- `DevRecv(p)`: the next word the environment has laid ready, else a free value (log entry 9). -/
def devRecv (ch : Chan) (s : State) : Word × State :=
  match s.devIn.get ch with
  | w :: rest => (w, { s with devIn := s.devIn.set ch rest })
  | [] => (Config.devWord ch.num s.devDraws, { s with devDraws := s.devDraws + 1 })

/-! ## Loops -/

/-- Run `f` on `lo, lo + 1, ..., lo + n - 1` in that order. -/
def forRange {α : Type} (n lo : Nat) (f : Nat → α → α) (a : α) : α :=
  match n with
  | 0 => a
  | n + 1 => forRange n (lo + 1) f (f lo a)

/-- How many integers lie from `lo` to `hi`, both inclusive. -/
def rangeCount (lo hi : Int) : Nat := (hi + 1 - lo).toNat

end Sys2Proof.Machine
end

