-- ==== Sys2Proof/Machine/Flags.lean ====
section
/-! DEFINITION. Every status bit the block computes: the activity of a channel (R40), `master_flag` (R46), the edge rule
(R36, R163), the write-1-to-clear write (R155), and the flag updates of a finished or runaway transfer (R186, R205). -/

namespace Sys2Proof.Machine

/-- The channel is active (10_state.md R40): `enable`, and in Manual mode also `manual_trigger`. -/
def ctlActive (ctl : Word) : Bool :=
  ctl.getLsbD 24 && (ctl.extractLsb' 9 2 != 0#2 || ctl.getLsbD 28)

/-- `force`, bit 15 (R105). -/
def intForce (i : BitVec 31) : Bool := i.getLsbD 15

/-- `master_enable`, bit 23 (R105). -/
def intMasterEnable (i : BitVec 31) : Bool := i.getLsbD 23

/-- `enable_6..0`, bits 22..16 (R105). -/
def intEnables (i : BitVec 31) : BitVec 7 := i.extractLsb' 16 7

/-- `flag_6..0`, bits 30..24 (R105). -/
def intFlags (i : BitVec 31) : BitVec 7 := i.extractLsb' 24 7

/-- `enable_i` of a channel. -/
def intEnable (i : BitVec 31) (ch : Chan) : Bool := i.getLsbD (16 + ch.num)

/-- `flag_i` of a channel. -/
def intFlag (i : BitVec 31) (ch : Chan) : Bool := i.getLsbD (24 + ch.num)

/-- `master_flag = force | (master_enable & OR(flag_i & enable_i))` (R46). -/
def masterFlag (i : BitVec 31) : Bool :=
  intForce i || (intMasterEnable i && (intFlags i &&& intEnables i) != 0)

/-- The word a read of `dma_interrupt` returns: bit 31 is `master_flag` (R46, R160). -/
def interruptWord (i : BitVec 31) : Word := BitVec.ofBool (masterFlag i) ++ i

/-- The register after a host write of `v` (R155): flags written 1 are cleared, bit 31 is ignored, the rest is stored. -/
def interruptWrite (i : BitVec 31) (v : Word) : BitVec 31 :=
  (intFlags i &&& ~~~(v.extractLsb' 24 7)) ++ v.extractLsb' 0 24

/-- The register with `flag_i` set. -/
def interruptSetFlag (i : BitVec 31) (ch : Chan) : BitVec 31 := i ||| (1#31 <<< (24 + ch.num))

/-- Store `dma_interrupt` and emit one `dma_irq` if `master_flag` goes from 0 to 1 (R36, R163, 60_exceptions.md R402). -/
def State.setInterrupt (s : State) (i : BitVec 31) : State :=
  { s with
    dmaInterrupt := i
    irqEvents := if !masterFlag s.dmaInterrupt && masterFlag i then s.irqEvents + 1 else s.irqEvents }

/-- `channel_control` with `enable` cleared. -/
def ctlClearEnable (ctl : Word) : Word := ctl &&& 0xFEFFFFFF#32

/-- `channel_control` with `enable` and `manual_trigger` cleared. -/
def ctlClearStart (ctl : Word) : Word := ctl &&& 0xEEFFFFFF#32

/-- `transfer_finished(i)` (41_dma_block_transfer.md R186): clears `enable` and `manual_trigger`, sets `flag_i` if
`enable_i`, applies the edge rule; the access has succeeded. -/
def transferFinished (ch : Chan) (s : State) : State :=
  let s1 := s.setCtl ch (ctlClearStart (s.chan ch).ctl)
  (if intEnable s1.dmaInterrupt ch then s1.setInterrupt (interruptSetFlag s1.dmaInterrupt ch) else s1).done

/-- `runaway_abort()` (42_dma_linked_list.md R205): clears `enable` only, sets `flag_2` whatever `enable_2` holds, applies
the edge rule, and raises `DmaRunaway`. -/
def runawayAbort (s : State) : State :=
  let s1 := s.setCtl .gpu (ctlClearEnable (s.chan .gpu).ctl)
  (s1.setInterrupt (interruptSetFlag s1.dmaInterrupt .gpu)).raise (.dmaRunaway .gpu)

end Sys2Proof.Machine
end

