-- ==== Sys2Proof/Machine/Operands.lean ====
section
/-! DEFINITION. The operand forms: positions, colours, palettes, pages, the views of the DMA registers, and the RGB555
pixel (30_encoding.md R101 to R116). -/

namespace Sys2Proof.Machine

/-! ## Channel registers -/

/-- `addr = base_addr & 0x1FFFFC` (41_dma_block_transfer.md R183, R201). -/
def startAddr (base : BitVec 24) : Word := dmaAddr (base.setWidth 32)

/-- `step`, +4 or -4 by `memory_address_step(1)` (R181, R104). -/
def stepOf (ctl : Word) : Word := if ctl.getLsbD 1 then 0xFFFFFFFC#32 else 4#32

/-- `words` (R182): `word_count` in Manual mode, `block_size * block_count` in Request mode, as an exact product (R102). -/
def wordCount (ctl block : Word) : Nat :=
  if ctl.extractLsb' 9 2 = 0#2 then (block.extractLsb' 0 16).toNat
  else (block.extractLsb' 0 16).toNat * (block.extractLsb' 16 16).toNat

/-- The next cursor, `(addr + step) & 0x1FFFFC` (R185). -/
def nextAddr (step addr : Word) : Word := dmaAddr (addr + step)

/-- The word the Otc channel writes at `addr`, `rest` words still to come (R187). -/
def otcWord (addr : Word) (rest : Nat) : Word := if rest = 0 then 0x00FFFFFF#32 else addr - 4#32

/-! ## Vertices -/

/-- A vertex as the filler takes it: position, colour, texture coordinate (45_triangle_raster.md R280). -/
structure Vert where
  x : Int
  y : Int
  c : Color
  t : Uv
  deriving DecidableEq, Repr

/-- One coordinate of a position with the draw offset added, brought back to a signed 11-bit value (44_polygon.md R238). -/
def place (v d : BitVec 11) : Int := (v + d).toInt

/-- A vertex record of a polygon: the position with the draw offset (R238), its colour (R237) and its texture coordinate. -/
def vert (off : DrawOffset) (p : Vertex) (c : Color) (t : Uv) : Vert := ⟨place p.x off.dx, place p.y off.dy, c, t⟩

/-- The texture coordinate of an untextured vertex, which nothing reads (R300). -/
def noUv : Uv := ⟨0, 0⟩

/-! ## Textures -/

/-- The CLUT origin (30_encoding.md R111). -/
def palX (p : Palette) : Nat := p.px.toNat * 16

/-- The CLUT row (R111). -/
def palY (p : Palette) : Nat := p.py.toNat

/-- `base_x` of a page (R112). -/
def baseX (g : TexPage) : Nat := g.pageX.toNat * 64

/-- `base_y` of a page (R112). -/
def baseY (g : TexPage) : Nat := g.pageY.toNat * 256

/-- The palette of an untextured primitive, which nothing reads (R300). -/
def noPalette : Palette := ⟨0, 0⟩

/-- The page of an untextured primitive, which nothing reads (R300). -/
def noPage : TexPage := ⟨0, 0, 0⟩

/-! ## RGB555 (R116) -/

/-- `Pack(r5, g5, b5, m)` (R116). -/
def pack (r g b : Nat) (m : Bool) : Half :=
  BitVec.ofBool m ++ BitVec.ofNat 5 b ++ BitVec.ofNat 5 g ++ BitVec.ofNat 5 r

/-- `r5 = p[4:0]` (R116). -/
def red5 (p : Half) : Nat := (p.extractLsb' 0 5).toNat

/-- `g5 = p[9:5]` (R116). -/
def green5 (p : Half) : Nat := (p.extractLsb' 5 5).toNat

/-- `b5 = p[14:10]` (R116). -/
def blue5 (p : Half) : Nat := (p.extractLsb' 10 5).toNat

/-- The mask bit, `m = p[15]` (R116). -/
def maskBit (p : Half) : Bool := p.getLsbD 15

/-- The size of a fixed-size rectangle by its `size_code` (47_rectangle.md R330): 1 is 1x1, 2 is 8x8, 3 is 16x16. -/
def fixedSize : Nat → Nat
  | 1 => 1
  | 2 => 8
  | _ => 16

end Sys2Proof.Machine
end

