-- ==== Sys2Proof/Machine/LineEnv.lean ====
section
/-! DEFINITION. The refused commands and the environment commands (48_line_env.md R375 to R381). -/

namespace Sys2Proof.Machine

/-- A command word refused when it arrives (R375, R376, 60_exceptions.md R395): it is not queued, nothing is drawn, the
error is the outcome. The state is marked as R390's fault state; the block itself goes on (R390). Log entry 3. -/
def refuseCommand (e : BlockError) (s : State) : State := (s.raise e).markFault e

/-- `DRAWMODE` (R378). -/
def execDrawmode (page : TexPage) (semi : BitVec 2) (s : State) : Out :=
  .next { s with texPage := page, semiOp := semi, result := .done }

/-- `AREA.TL` (R379). -/
def execAreaTl (x : BitVec 10) (y : BitVec 9) (s : State) : Out :=
  .next { s with drawArea := { s.drawArea with minX := x, minY := y }, result := .done }

/-- `AREA.BR` (R380). -/
def execAreaBr (x : BitVec 10) (y : BitVec 9) (s : State) : Out :=
  .next { s with drawArea := { s.drawArea with maxX := x, maxY := y }, result := .done }

/-- `OFFSET` (R381). -/
def execOffset (dx dy : BitVec 11) (s : State) : Out :=
  .next { s with drawOffset := ⟨dx, dy⟩, result := .done }

/-- `LINE.*` (R375): `GpuDecodeError.Unimplemented`, carrying the command word (R391). -/
def execLine (rest : BitVec 29) (s : State) : Out := .next (refuseCommand (.unimplemented (2#3 ++ rest)) s)

/-- Unknown commands 0x00 to 0x1F (R376): `GpuDecodeError.UnknownCommand`. -/
def execGp0Unknown00 (rest : BitVec 29) (s : State) : Out := .next (refuseCommand (.unknownCommand (0#3 ++ rest)) s)

/-- Unknown commands 0x80 to 0x9F (R376). -/
def execGp0Unknown80 (rest : BitVec 29) (s : State) : Out := .next (refuseCommand (.unknownCommand (4#3 ++ rest)) s)

/-- Unknown commands 0xA0 to 0xBF (R376). -/
def execGp0UnknownA0 (rest : BitVec 29) (s : State) : Out := .next (refuseCommand (.unknownCommand (5#3 ++ rest)) s)

/-- Unknown commands 0xC0 to 0xDF (R376). -/
def execGp0UnknownC0 (rest : BitVec 29) (s : State) : Out := .next (refuseCommand (.unknownCommand (6#3 ++ rest)) s)

/-- Unknown commands 0xE0, 0xE2, 0xE6 to 0xFF (R376). -/
def execGp0UnknownE0 (op : BitVec 5) (arg : BitVec 24) (s : State) : Out :=
  .next (refuseCommand (.unknownCommand (7#3 ++ op ++ arg)) s)

end Sys2Proof.Machine
end

