-- ==== Sys2Proof/Machine/Pixel.lean ====
section
/-! DEFINITION. The pixel pipeline (46_pixel_pipeline.md): shading, texture sampling, modulation, blending, the write. -/

namespace Sys2Proof.Machine

/-- The render type of a primitive (R300). -/
inductive RenderType
  | shaded | texP4 | texP8 | texD16
  deriving DecidableEq, Repr

/-- The render type of a textured primitive by the depth of its page; none for the reserved depth 3 (R240, R335). -/
def texturedType (depth : BitVec 2) : Option RenderType :=
  match depth.toNat with
  | 0 => some .texP4
  | 1 => some .texP8
  | 2 => some .texD16
  | _ => none

/-- The drawing context of a primitive (R300); `op` is the Gpu's `semi_op`, the same for all its pixels. -/
structure Ctx where
  rt : RenderType
  raw : Bool
  semi : Bool
  pal : Palette
  page : TexPage
  mod : Color
  op : BitVec 2
  deriving DecidableEq, Repr

/-- The top five bits of an 8-bit part (R302). -/
def quantise (c8 : Nat) : Nat := c8 >>> 3

/-- A colour quantised to RGB555, mask bit 0 (R302). -/
def quantisedPixel (r8 g8 b8 : Nat) : Half := pack (quantise r8) (quantise g8) (quantise b8) false

/-- `Clut(index)` (R309). -/
def clut (vram : List (Nat × BitVec 16)) (pal : Palette) (index : Nat) : Half := vramRead vram (palX pal + index) (palY pal)

/-- `Sample` for `TEX_P4` (R306). -/
def sampleP4 (vram : List (Nat × BitVec 16)) (ctx : Ctx) (u v : Nat) : Half :=
  let word := vramRead vram (baseX ctx.page + u / 4) (baseY ctx.page + v)
  clut vram ctx.pal ((word.toNat >>> (4 * (u % 4))) % 16)

/-- `Sample` for `TEX_P8` (R307). -/
def sampleP8 (vram : List (Nat × BitVec 16)) (ctx : Ctx) (u v : Nat) : Half :=
  let word := vramRead vram (baseX ctx.page + u / 2) (baseY ctx.page + v)
  clut vram ctx.pal ((word.toNat >>> (8 * (u % 2))) % 256)

/-- `Sample` for `TEX_D16` (R308). -/
def sampleD16 (vram : List (Nat × BitVec 16)) (ctx : Ctx) (u v : Nat) : Half :=
  vramRead vram (baseX ctx.page + u) (baseY ctx.page + v)

/-- `Sample(texel, ctx)` (R305). A `SHADED` primitive samples nothing. -/
def sample (vram : List (Nat × BitVec 16)) (ctx : Ctx) (u v : Nat) : Half :=
  match ctx.rt with
  | .texP4 => sampleP4 vram ctx u v
  | .texP8 => sampleP8 vram ctx u v
  | .texD16 => sampleD16 vram ctx u v
  | .shaded => 0

/-- One channel of the modulation, `min(31, (t5 * m8) >> 7)` (R311). -/
def modulate5 (t5 m8 : Nat) : Nat := min 31 ((t5 * m8) >>> 7)

/-- The modulated colour, the texel's mask bit carried over (R311). -/
def modulate (s : Half) (m : Color) : Half :=
  pack (modulate5 (red5 s) m.r.toNat) (modulate5 (green5 s) m.g.toNat) (modulate5 (blue5 s) m.b.toNat) (maskBit s)

/-- One channel of the blend by `semi_op` (R313); the subtraction is clamped at 0. -/
def blend5 (op : BitVec 2) (back front : Nat) : Nat :=
  match op.toNat with
  | 0 => (back >>> 1) + (front >>> 1)
  | 1 => min 31 (back + front)
  | 2 => back - front
  | _ => min 31 (back + (front >>> 2))

/-- The blended pixel, the front's mask bit carried over (R313). -/
def blend (op : BitVec 2) (back front : Half) : Half :=
  pack (blend5 op (red5 back) (red5 front)) (blend5 op (green5 back) (green5 front))
    (blend5 op (blue5 back) (blue5 front)) (maskBit front)

/-- Whether a front colour is blended (R312). -/
def blends (ctx : Ctx) (front : Half) : Bool := ctx.semi && (ctx.rt == .shaded || maskBit front)

/-- The blend test and the framebuffer write (R312 to R314). -/
def putPixel (ctx : Ctx) (x y : Nat) (front : Half) (vram : List (Nat × BitVec 16)) : List (Nat × BitVec 16) :=
  vramWrite vram x y (if blends ctx front then blend ctx.op (vramRead vram x y) front else front)

/-- The front colour of a sampled texel (R311). -/
def frontOf (ctx : Ctx) (s : Half) : Half := if ctx.raw then s else modulate s ctx.mod

/-- One textured pixel (R310, R314): a sample of 0x0000 is transparent. -/
def texturedPixel (ctx : Ctx) (x y u v : Nat) (vram : List (Nat × BitVec 16)) : List (Nat × BitVec 16) :=
  let s := sample vram ctx u v
  if s = 0 then vram else putPixel ctx x y (frontOf ctx s) vram

end Sys2Proof.Machine
end

