-- ==== Sys2Proof/Machine/Raster.lean ====
section
/-! DEFINITION. Triangle rasterization (45_triangle_raster.md): edge functions, the top-left rule, interpolation. -/

namespace Sys2Proof.Machine

/-- `edge(a, b, p)` (R281, R17), exact. -/
def edge (ax ay bx by_ px py : Int) : Int := (bx - ax) * (py - ay) - (by_ - ay) * (px - ax)

/-- `TopLeft(a → b)` (R286): a left edge has `dy < 0`, a top edge `dy = 0` and `dx > 0`. -/
def topLeft (ax ay bx by_ : Int) : Bool := decide (by_ - ay < 0) || (decide (by_ - ay = 0) && decide (0 < bx - ax))

/-- A triangle after setup (R282), with its `area`. -/
structure Tri where
  v0 : Vert
  v1 : Vert
  v2 : Vert
  area : Int
  deriving DecidableEq, Repr

/-- Setup (R282): no triangle if the area is 0; if it is negative, vertices 1 and 2 are swapped whole. -/
def setup (v0 v1 v2 : Vert) : Option Tri :=
  let area := edge v0.x v0.y v1.x v1.y v2.x v2.y
  if area = 0 then none
  else if area < 0 then some ⟨v0, v2, v1, -area⟩
  else some ⟨v0, v1, v2, area⟩

/-- `w0 = edge(p1, p2, (x, y))`, the weight of vertex 0 (R284). -/
def Tri.w0 (t : Tri) (x y : Int) : Int := edge t.v1.x t.v1.y t.v2.x t.v2.y x y

/-- `w1 = edge(p2, p0, (x, y))`, the weight of vertex 1 (R284). -/
def Tri.w1 (t : Tri) (x y : Int) : Int := edge t.v2.x t.v2.y t.v0.x t.v0.y x y

/-- `w2 = edge(p0, p1, (x, y))`, the weight of vertex 2 (R284). -/
def Tri.w2 (t : Tri) (x y : Int) : Int := edge t.v0.x t.v0.y t.v1.x t.v1.y x y

/-- Inclusion (R285): each weight positive, or zero on a top or left edge. -/
def Tri.inside (t : Tri) (x y : Int) : Bool :=
  (decide (0 < t.w0 x y) || (decide (t.w0 x y = 0) && topLeft t.v1.x t.v1.y t.v2.x t.v2.y)) &&
  (decide (0 < t.w1 x y) || (decide (t.w1 x y = 0) && topLeft t.v2.x t.v2.y t.v0.x t.v0.y)) &&
  (decide (0 < t.w2 x y) || (decide (t.w2 x y = 0) && topLeft t.v0.x t.v0.y t.v1.x t.v1.y))

/-- `(c0*a + c1*b + c2*c) // area` (R301, R303). -/
def Tri.interpolate (t : Tri) (x y : Int) (c0 c1 c2 : Byte) : Nat :=
  (((c0.toNat : Int) * t.w0 x y + (c1.toNat : Int) * t.w1 x y + (c2.toNat : Int) * t.w2 x y) / t.area).toNat

/-- The front colour of a `SHADED` pixel (R301, R302). -/
def Tri.shade (t : Tri) (x y : Int) : Half :=
  quantisedPixel (t.interpolate x y t.v0.c.r t.v1.c.r t.v2.c.r) (t.interpolate x y t.v0.c.g t.v1.c.g t.v2.c.g)
    (t.interpolate x y t.v0.c.b t.v1.c.b t.v2.c.b)

/-- `DrawPixel` of a covered pixel of a triangle (R288, R300): the shaded colour, or the interpolated texel (R303). -/
def Tri.drawPixel (t : Tri) (ctx : Ctx) (x y : Nat) (vram : List (Nat × BitVec 16)) : List (Nat × BitVec 16) :=
  match ctx.rt with
  | .shaded => putPixel ctx x y (t.shade x y) vram
  | .texP4 | .texP8 | .texD16 =>
    texturedPixel ctx x y (t.interpolate x y t.v0.t.u t.v1.t.u t.v2.t.u)
      (t.interpolate x y t.v0.t.v t.v1.t.v t.v2.t.v) vram

/-- The least of three. -/
def min3 (a b c : Int) : Int := min (min a b) c

/-- The greatest of three. -/
def max3 (a b c : Int) : Int := max (max a b) c

/-- `x0` of the clipped bounding box (R283). -/
def Tri.x0 (t : Tri) (area : DrawArea) : Int := max (min3 t.v0.x t.v1.x t.v2.x) area.minX.toNat

/-- `x1` of the clipped bounding box (R283). -/
def Tri.x1 (t : Tri) (area : DrawArea) : Int := min (max3 t.v0.x t.v1.x t.v2.x) area.maxX.toNat

/-- `y0` of the clipped bounding box (R283). -/
def Tri.y0 (t : Tri) (area : DrawArea) : Int := max (min3 t.v0.y t.v1.y t.v2.y) area.minY.toNat

/-- `y1` of the clipped bounding box (R283). -/
def Tri.y1 (t : Tri) (area : DrawArea) : Int := min (max3 t.v0.y t.v1.y t.v2.y) area.maxY.toNat

/-- The pixels of a box, rows ascending and then `x` ascending (R287, 47_rectangle.md R332). -/
def scanBox (x0 x1 y0 y1 : Int) (f : Nat → Nat → List (Nat × BitVec 16) → List (Nat × BitVec 16))
    (vram : List (Nat × BitVec 16)) : List (Nat × BitVec 16) :=
  forRange (rangeCount y0 y1) y0.toNat (fun y m => forRange (rangeCount x0 x1) x0.toNat (fun x m' => f x y m') m) vram

/-- `DrawTriangle` (R280 to R288). -/
def drawTriangle (ctx : Ctx) (area : DrawArea) (v0 v1 v2 : Vert) (vram : List (Nat × BitVec 16)) : List (Nat × BitVec 16) :=
  match setup v0 v1 v2 with
  | none => vram
  | some t =>
    scanBox (t.x0 area) (t.x1 area) (t.y0 area) (t.y1 area)
      (fun x y m => if t.inside x y then t.drawPixel ctx x y m else m) vram

end Sys2Proof.Machine
end

