-- ==== Sys2Proof/Machine/Polygon.lean ====
section
/-! DEFINITION. The polygon commands, GP0 0x20 to 0x3F (44_polygon.md): the common operation R236, one form per packet
shape of 30_encoding.md R118, and the 32 meanings R244 to R275. -/

namespace Sys2Proof.Machine

/-- The texture information of a textured polygon (R239). -/
structure TexInfo where
  pal : Palette
  page : TexPage
  deriving DecidableEq, Repr

/-- The context of an untextured primitive (R240, R334): render type `SHADED`. -/
def shadedCtx (raw semi : Bool) (mod : Color) (op : BitVec 2) : Ctx := ⟨.shaded, raw, semi, noPalette, noPage, mod, op⟩

/-- The two triangles of a quad, or the one of a triangle, in their order (R241). -/
def drawPolygon (ctx : Ctx) (area : DrawArea) (v0 v1 v2 : Vert) (v3 : Option Vert) (vram : List (Nat × BitVec 16)) :
    List (Nat × BitVec 16) :=
  match v3 with
  | none => drawTriangle ctx area v0 v1 v2 vram
  | some v3 => drawTriangle ctx area v1 v2 v3 (drawTriangle ctx area v0 v1 v2 vram)

/-- Drawing with a context: VRAM changes and the command succeeds; nothing else changes (R243(e)). -/
def drawWith (s : State) (draw : List (Nat × BitVec 16) → List (Nat × BitVec 16)) : State :=
  { s with vram := draw s.vram, result := .done }

/-- `ExecPolygon` of an untextured polygon (R236, R240). -/
def polygonShaded (raw semi : Bool) (c0 : Color) (v0 v1 v2 : Vert) (v3 : Option Vert) (s : State) : Out :=
  .next (drawWith s (drawPolygon (shadedCtx raw semi c0 s.semiOp) s.drawArea v0 v1 v2 v3))

/-- `ExecPolygon` of a textured polygon (R236, R239, R240, R242): the reserved depth is refused before anything is drawn. -/
def polygonTextured (op : BitVec 8) (raw semi : Bool) (c0 : Color) (tex : TexInfo) (v0 v1 v2 : Vert) (v3 : Option Vert)
    (s : State) : Out :=
  match texturedType tex.page.depth with
  | none => .next (s.raise (.reservedDepth (c0.toWord op)))
  | some rt =>
    .next (drawWith s (drawPolygon ⟨rt, raw, semi, tex.pal, tex.page, c0, s.semiOp⟩ s.drawArea v0 v1 v2 v3))

/-- A flat untextured triangle (R118, R237). -/
def triFlat (raw semi : Bool) (p : TriFlat) (s : State) : Out :=
  polygonShaded raw semi p.c (vert s.drawOffset p.v0 p.c noUv) (vert s.drawOffset p.v1 p.c noUv)
    (vert s.drawOffset p.v2 p.c noUv) none s

/-- A flat textured triangle. -/
def triFlatTex (op : BitVec 8) (raw semi : Bool) (p : TriFlatTex) (s : State) : Out :=
  polygonTextured op raw semi p.c ⟨p.pal, p.page⟩ (vert s.drawOffset p.v0 p.c p.t0) (vert s.drawOffset p.v1 p.c p.t1)
    (vert s.drawOffset p.v2 p.c p.t2) none s

/-- A flat untextured quad. -/
def quadFlat (raw semi : Bool) (p : QuadFlat) (s : State) : Out :=
  polygonShaded raw semi p.c (vert s.drawOffset p.v0 p.c noUv) (vert s.drawOffset p.v1 p.c noUv)
    (vert s.drawOffset p.v2 p.c noUv) (some (vert s.drawOffset p.v3 p.c noUv)) s

/-- A flat textured quad. -/
def quadFlatTex (op : BitVec 8) (raw semi : Bool) (p : QuadFlatTex) (s : State) : Out :=
  polygonTextured op raw semi p.c ⟨p.pal, p.page⟩ (vert s.drawOffset p.v0 p.c p.t0) (vert s.drawOffset p.v1 p.c p.t1)
    (vert s.drawOffset p.v2 p.c p.t2) (some (vert s.drawOffset p.v3 p.c p.t3)) s

/-- A Gouraud untextured triangle: the command word gives the colour of vertex 0 (R237). -/
def triGouraud (raw semi : Bool) (p : TriGouraud) (s : State) : Out :=
  polygonShaded raw semi p.c (vert s.drawOffset p.v0 p.c noUv) (vert s.drawOffset p.v1 p.c1 noUv)
    (vert s.drawOffset p.v2 p.c2 noUv) none s

/-- A Gouraud textured triangle: the colour words are taken and not used for drawing (R242). -/
def triGouraudTex (op : BitVec 8) (raw semi : Bool) (p : TriGouraudTex) (s : State) : Out :=
  polygonTextured op raw semi p.c ⟨p.pal, p.page⟩ (vert s.drawOffset p.v0 p.c p.t0) (vert s.drawOffset p.v1 p.c1 p.t1)
    (vert s.drawOffset p.v2 p.c2 p.t2) none s

/-- A Gouraud untextured quad. -/
def quadGouraud (raw semi : Bool) (p : QuadGouraud) (s : State) : Out :=
  polygonShaded raw semi p.c (vert s.drawOffset p.v0 p.c noUv) (vert s.drawOffset p.v1 p.c1 noUv)
    (vert s.drawOffset p.v2 p.c2 noUv) (some (vert s.drawOffset p.v3 p.c3 noUv)) s

/-- A Gouraud textured quad: the colour words are taken and not used for drawing (R242). -/
def quadGouraudTex (op : BitVec 8) (raw semi : Bool) (p : QuadGouraudTex) (s : State) : Out :=
  polygonTextured op raw semi p.c ⟨p.pal, p.page⟩ (vert s.drawOffset p.v0 p.c p.t0) (vert s.drawOffset p.v1 p.c1 p.t1)
    (vert s.drawOffset p.v2 p.c2 p.t2) (some (vert s.drawOffset p.v3 p.c3 p.t3)) s

/-- `TRI.F` (R244). -/
def execTriF (p : TriFlat) (s : State) : Out := triFlat false false p s

/-- `TRI.F.R` (R245). -/
def execTriFR (p : TriFlat) (s : State) : Out := triFlat true false p s

/-- `TRI.F.S` (R246). -/
def execTriFS (p : TriFlat) (s : State) : Out := triFlat false true p s

/-- `TRI.F.S.R` (R247). -/
def execTriFSR (p : TriFlat) (s : State) : Out := triFlat true true p s

/-- `TRI.F.T` (R248). -/
def execTriFT (p : TriFlatTex) (s : State) : Out := triFlatTex 0x24#8 false false p s

/-- `TRI.F.T.R` (R249). -/
def execTriFTR (p : TriFlatTex) (s : State) : Out := triFlatTex 0x25#8 true false p s

/-- `TRI.F.T.S` (R250). -/
def execTriFTS (p : TriFlatTex) (s : State) : Out := triFlatTex 0x26#8 false true p s

/-- `TRI.F.T.S.R` (R251). -/
def execTriFTSR (p : TriFlatTex) (s : State) : Out := triFlatTex 0x27#8 true true p s

/-- `QUAD.F` (R252). -/
def execQuadF (p : QuadFlat) (s : State) : Out := quadFlat false false p s

/-- `QUAD.F.R` (R253). -/
def execQuadFR (p : QuadFlat) (s : State) : Out := quadFlat true false p s

/-- `QUAD.F.S` (R254). -/
def execQuadFS (p : QuadFlat) (s : State) : Out := quadFlat false true p s

/-- `QUAD.F.S.R` (R255). -/
def execQuadFSR (p : QuadFlat) (s : State) : Out := quadFlat true true p s

/-- `QUAD.F.T` (R256). -/
def execQuadFT (p : QuadFlatTex) (s : State) : Out := quadFlatTex 0x2C#8 false false p s

/-- `QUAD.F.T.R` (R257). -/
def execQuadFTR (p : QuadFlatTex) (s : State) : Out := quadFlatTex 0x2D#8 true false p s

/-- `QUAD.F.T.S` (R258). -/
def execQuadFTS (p : QuadFlatTex) (s : State) : Out := quadFlatTex 0x2E#8 false true p s

/-- `QUAD.F.T.S.R` (R259). -/
def execQuadFTSR (p : QuadFlatTex) (s : State) : Out := quadFlatTex 0x2F#8 true true p s

/-- `TRI.G` (R260). -/
def execTriG (p : TriGouraud) (s : State) : Out := triGouraud false false p s

/-- `TRI.G.R` (R261). -/
def execTriGR (p : TriGouraud) (s : State) : Out := triGouraud true false p s

/-- `TRI.G.S` (R262). -/
def execTriGS (p : TriGouraud) (s : State) : Out := triGouraud false true p s

/-- `TRI.G.S.R` (R263). -/
def execTriGSR (p : TriGouraud) (s : State) : Out := triGouraud true true p s

/-- `TRI.G.T` (R264). -/
def execTriGT (p : TriGouraudTex) (s : State) : Out := triGouraudTex 0x34#8 false false p s

/-- `TRI.G.T.R` (R265). -/
def execTriGTR (p : TriGouraudTex) (s : State) : Out := triGouraudTex 0x35#8 true false p s

/-- `TRI.G.T.S` (R266). -/
def execTriGTS (p : TriGouraudTex) (s : State) : Out := triGouraudTex 0x36#8 false true p s

/-- `TRI.G.T.S.R` (R267). -/
def execTriGTSR (p : TriGouraudTex) (s : State) : Out := triGouraudTex 0x37#8 true true p s

/-- `QUAD.G` (R268). -/
def execQuadG (p : QuadGouraud) (s : State) : Out := quadGouraud false false p s

/-- `QUAD.G.R` (R269). -/
def execQuadGR (p : QuadGouraud) (s : State) : Out := quadGouraud true false p s

/-- `QUAD.G.S` (R270). -/
def execQuadGS (p : QuadGouraud) (s : State) : Out := quadGouraud false true p s

/-- `QUAD.G.S.R` (R271). -/
def execQuadGSR (p : QuadGouraud) (s : State) : Out := quadGouraud true true p s

/-- `QUAD.G.T` (R272). -/
def execQuadGT (p : QuadGouraudTex) (s : State) : Out := quadGouraudTex 0x3C#8 false false p s

/-- `QUAD.G.T.R` (R273). -/
def execQuadGTR (p : QuadGouraudTex) (s : State) : Out := quadGouraudTex 0x3D#8 true false p s

/-- `QUAD.G.T.S` (R274). -/
def execQuadGTS (p : QuadGouraudTex) (s : State) : Out := quadGouraudTex 0x3E#8 false true p s

/-- `QUAD.G.T.S.R` (R275). -/
def execQuadGTSR (p : QuadGouraudTex) (s : State) : Out := quadGouraudTex 0x3F#8 true true p s

end Sys2Proof.Machine
end

