-- ==== Sys2Proof/Machine/Rect.lean ====
section
/-! DEFINITION. The rectangle commands, GP0 0x60 to 0x7F (47_rectangle.md): the common operation R331 to R335 and the 32
meanings R338 to R369. -/

namespace Sys2Proof.Machine

/-- The pixels of a rectangle inside the drawing area, rows ascending, then `x` ascending (R332). `px + w` is not wrapped. -/
def scanRect (area : DrawArea) (px py : Int) (w h : Nat)
    (f : Nat → Nat → List (Nat × BitVec 16) → List (Nat × BitVec 16)) (vram : List (Nat × BitVec 16)) :
    List (Nat × BitVec 16) :=
  scanBox (max px area.minX.toNat) (min (px + w - 1) area.maxX.toNat) (max py area.minY.toNat)
    (min (py + h - 1) area.maxY.toNat) f vram

/-- The texel coordinate of a rectangle pixel, counted from the rectangle's own corner and wrapped at 256 (R333). -/
def rectTexel (base : Byte) (p : Int) (x : Nat) : Nat := (((base.toNat : Int) + ((x : Int) - p)) % 256).toNat

/-- `ExecRect` of an untextured rectangle (R331, R334). -/
def rectShaded (raw semi : Bool) (c : Color) (v : Vertex) (w h : Nat) (s : State) : Out :=
  let ctx := shadedCtx raw semi c s.semiOp
  .next (drawWith s (scanRect s.drawArea (place v.x s.drawOffset.dx) (place v.y s.drawOffset.dy) w h
    (fun x y => putPixel ctx x y (quantisedPixel c.r.toNat c.g.toNat c.b.toNat))))

/-- `ExecRect` of a textured rectangle (R331, R333, R335): the page is the Gpu's `tex_page`; the reserved depth is refused
before anything is drawn. -/
def rectTextured (op : BitVec 8) (raw semi : Bool) (c : Color) (v : Vertex) (t : Uv) (pal : Palette) (w h : Nat)
    (s : State) : Out :=
  match texturedType s.texPage.depth with
  | none => .next (s.raise (.reservedDepth (c.toWord op)))
  | some rt =>
    let px := place v.x s.drawOffset.dx
    let py := place v.y s.drawOffset.dy
    let ctx : Ctx := ⟨rt, raw, semi, pal, s.texPage, c, s.semiOp⟩
    .next (drawWith s (scanRect s.drawArea px py w h
      (fun x y => texturedPixel ctx x y (rectTexel t.u px x) (rectTexel t.v py y))))

/-- An untextured rectangle with a size word (R331, R113). -/
def rectVar (raw semi : Bool) (p : RectVar) (s : State) : Out := rectShaded raw semi p.c p.v p.w.toNat p.h.toNat s

/-- A textured rectangle with a size word. -/
def rectVarTex (op : BitVec 8) (raw semi : Bool) (p : RectVarTex) (s : State) : Out :=
  rectTextured op raw semi p.c p.v p.t p.pal p.w.toNat p.h.toNat s

/-- An untextured rectangle of the fixed size that `size_code` gives (R330). -/
def rectFix (code : Nat) (raw semi : Bool) (p : RectFix) (s : State) : Out :=
  rectShaded raw semi p.c p.v (fixedSize code) (fixedSize code) s

/-- A textured rectangle of a fixed size. -/
def rectFixTex (op : BitVec 8) (code : Nat) (raw semi : Bool) (p : RectFixTex) (s : State) : Out :=
  rectTextured op raw semi p.c p.v p.t p.pal (fixedSize code) (fixedSize code) s

/-- `RECT.V` (R338). -/
def execRectV (p : RectVar) (s : State) : Out := rectVar false false p s

/-- `RECT.V.R` (R339). -/
def execRectVR (p : RectVar) (s : State) : Out := rectVar true false p s

/-- `RECT.V.S` (R340). -/
def execRectVS (p : RectVar) (s : State) : Out := rectVar false true p s

/-- `RECT.V.S.R` (R341). -/
def execRectVSR (p : RectVar) (s : State) : Out := rectVar true true p s

/-- `RECT.V.T` (R342). -/
def execRectVT (p : RectVarTex) (s : State) : Out := rectVarTex 0x64#8 false false p s

/-- `RECT.V.T.R` (R343). -/
def execRectVTR (p : RectVarTex) (s : State) : Out := rectVarTex 0x65#8 true false p s

/-- `RECT.V.T.S` (R344). -/
def execRectVTS (p : RectVarTex) (s : State) : Out := rectVarTex 0x66#8 false true p s

/-- `RECT.V.T.S.R` (R345). -/
def execRectVTSR (p : RectVarTex) (s : State) : Out := rectVarTex 0x67#8 true true p s

/-- `RECT.1` (R346). -/
def execRect1 (p : RectFix) (s : State) : Out := rectFix 1 false false p s

/-- `RECT.1.R` (R347). -/
def execRect1R (p : RectFix) (s : State) : Out := rectFix 1 true false p s

/-- `RECT.1.S` (R348). -/
def execRect1S (p : RectFix) (s : State) : Out := rectFix 1 false true p s

/-- `RECT.1.S.R` (R349). -/
def execRect1SR (p : RectFix) (s : State) : Out := rectFix 1 true true p s

/-- `RECT.1.T` (R350). -/
def execRect1T (p : RectFixTex) (s : State) : Out := rectFixTex 0x6C#8 1 false false p s

/-- `RECT.1.T.R` (R351). -/
def execRect1TR (p : RectFixTex) (s : State) : Out := rectFixTex 0x6D#8 1 true false p s

/-- `RECT.1.T.S` (R352). -/
def execRect1TS (p : RectFixTex) (s : State) : Out := rectFixTex 0x6E#8 1 false true p s

/-- `RECT.1.T.S.R` (R353). -/
def execRect1TSR (p : RectFixTex) (s : State) : Out := rectFixTex 0x6F#8 1 true true p s

/-- `RECT.8` (R354). -/
def execRect8 (p : RectFix) (s : State) : Out := rectFix 2 false false p s

/-- `RECT.8.R` (R355). -/
def execRect8R (p : RectFix) (s : State) : Out := rectFix 2 true false p s

/-- `RECT.8.S` (R356). -/
def execRect8S (p : RectFix) (s : State) : Out := rectFix 2 false true p s

/-- `RECT.8.S.R` (R357). -/
def execRect8SR (p : RectFix) (s : State) : Out := rectFix 2 true true p s

/-- `RECT.8.T` (R358). -/
def execRect8T (p : RectFixTex) (s : State) : Out := rectFixTex 0x74#8 2 false false p s

/-- `RECT.8.T.R` (R359). -/
def execRect8TR (p : RectFixTex) (s : State) : Out := rectFixTex 0x75#8 2 true false p s

/-- `RECT.8.T.S` (R360). -/
def execRect8TS (p : RectFixTex) (s : State) : Out := rectFixTex 0x76#8 2 false true p s

/-- `RECT.8.T.S.R` (R361). -/
def execRect8TSR (p : RectFixTex) (s : State) : Out := rectFixTex 0x77#8 2 true true p s

/-- `RECT.16` (R362). -/
def execRect16 (p : RectFix) (s : State) : Out := rectFix 3 false false p s

/-- `RECT.16.R` (R363). -/
def execRect16R (p : RectFix) (s : State) : Out := rectFix 3 true false p s

/-- `RECT.16.S` (R364). -/
def execRect16S (p : RectFix) (s : State) : Out := rectFix 3 false true p s

/-- `RECT.16.S.R` (R365). -/
def execRect16SR (p : RectFix) (s : State) : Out := rectFix 3 true true p s

/-- `RECT.16.T` (R366). -/
def execRect16T (p : RectFixTex) (s : State) : Out := rectFixTex 0x7C#8 3 false false p s

/-- `RECT.16.T.R` (R367). -/
def execRect16TR (p : RectFixTex) (s : State) : Out := rectFixTex 0x7D#8 3 true false p s

/-- `RECT.16.T.S` (R368). -/
def execRect16TS (p : RectFixTex) (s : State) : Out := rectFixTex 0x7E#8 3 false true p s

/-- `RECT.16.T.S.R` (R369). -/
def execRect16TSR (p : RectFixTex) (s : State) : Out := rectFixTex 0x7F#8 3 true true p s

end Sys2Proof.Machine
end

