-- ==== Sys2Proof/Machine/Ingress.lean ====
section
/-! DEFINITION. The GP0 ingress (43_gp0_ingress.md): assembling words into commands and executing them. -/

namespace Sys2Proof.Machine

/-- `Execute` (R218): the GP0 command `i`, by the meaning that `exec` gives it. The nineteen instructions that are no GP0
command never come out of `decodeGp0`; they leave the state as it is. -/
def execCommand (i : Instr) (s : State) : Out :=
  match i with
  | .triF p => execTriF p s
  | .triFR p => execTriFR p s
  | .triFS p => execTriFS p s
  | .triFSR p => execTriFSR p s
  | .triFT p => execTriFT p s
  | .triFTR p => execTriFTR p s
  | .triFTS p => execTriFTS p s
  | .triFTSR p => execTriFTSR p s
  | .quadF p => execQuadF p s
  | .quadFR p => execQuadFR p s
  | .quadFS p => execQuadFS p s
  | .quadFSR p => execQuadFSR p s
  | .quadFT p => execQuadFT p s
  | .quadFTR p => execQuadFTR p s
  | .quadFTS p => execQuadFTS p s
  | .quadFTSR p => execQuadFTSR p s
  | .triG p => execTriG p s
  | .triGR p => execTriGR p s
  | .triGS p => execTriGS p s
  | .triGSR p => execTriGSR p s
  | .triGT p => execTriGT p s
  | .triGTR p => execTriGTR p s
  | .triGTS p => execTriGTS p s
  | .triGTSR p => execTriGTSR p s
  | .quadG p => execQuadG p s
  | .quadGR p => execQuadGR p s
  | .quadGS p => execQuadGS p s
  | .quadGSR p => execQuadGSR p s
  | .quadGT p => execQuadGT p s
  | .quadGTR p => execQuadGTR p s
  | .quadGTS p => execQuadGTS p s
  | .quadGTSR p => execQuadGTSR p s
  | .rectV p => execRectV p s
  | .rectVR p => execRectVR p s
  | .rectVS p => execRectVS p s
  | .rectVSR p => execRectVSR p s
  | .rectVT p => execRectVT p s
  | .rectVTR p => execRectVTR p s
  | .rectVTS p => execRectVTS p s
  | .rectVTSR p => execRectVTSR p s
  | .rect1 p => execRect1 p s
  | .rect1R p => execRect1R p s
  | .rect1S p => execRect1S p s
  | .rect1SR p => execRect1SR p s
  | .rect1T p => execRect1T p s
  | .rect1TR p => execRect1TR p s
  | .rect1TS p => execRect1TS p s
  | .rect1TSR p => execRect1TSR p s
  | .rect8 p => execRect8 p s
  | .rect8R p => execRect8R p s
  | .rect8S p => execRect8S p s
  | .rect8SR p => execRect8SR p s
  | .rect8T p => execRect8T p s
  | .rect8TR p => execRect8TR p s
  | .rect8TS p => execRect8TS p s
  | .rect8TSR p => execRect8TSR p s
  | .rect16 p => execRect16 p s
  | .rect16R p => execRect16R p s
  | .rect16S p => execRect16S p s
  | .rect16SR p => execRect16SR p s
  | .rect16T p => execRect16T p s
  | .rect16TR p => execRect16TR p s
  | .rect16TS p => execRect16TS p s
  | .rect16TSR p => execRect16TSR p s
  | .drawmode page semi => execDrawmode page semi s
  | .areaTl x y => execAreaTl x y s
  | .areaBr x y => execAreaBr x y s
  | .offset dx dy => execOffset dx dy s
  | .line rest => execLine rest s
  | .gp0Unknown00 rest => execGp0Unknown00 rest s
  | .gp0Unknown80 rest => execGp0Unknown80 rest s
  | .gp0UnknownA0 rest => execGp0UnknownA0 rest s
  | .gp0UnknownC0 rest => execGp0UnknownC0 rest s
  | .gp0UnknownE0 op arg => execGp0UnknownE0 op arg s
  | .dmaWrBase _ _
  | .dmaWrBlock _ _
  | .dmaWrChctl _ _
  | .dmaRdBase _
  | .dmaRdBlock _
  | .dmaRdChctl _
  | .dmaWrControl _
  | .dmaWrInterrupt _
  | .dmaRdControl
  | .dmaRdInterrupt
  | .dmaUnmapped _ _ _ _
  | .gp0Wr _
  | .xferBlockFromram _ _
  | .xferBlockToram _ _
  | .xferBlockOtc _
  | .xferList _
  | .xferInvalid _ _
  | .llNext _ _
  | .llEnd _ _ => .next s

/-- The Rasterizer's own entry with a word vector (R219): a length that is not the command's raises `Length` and draws
nothing. The vector has a first word (log entry 31), and `Length` leaves no fault mark (log entry 4). -/
def executeWords (w0 : Word) (args : List Word) (s : State) : Out :=
  match decodeGp0 w0 args with
  | .ok i => execCommand i s
  | .error _ => .next (s.raise (.length w0))

/-- The word is queued and more are needed (R216). -/
def queueWord (w : Word) (s : State) : State := { s with gp0Buf := s.gp0Buf ++ [w], result := .done }

/-- `PushGp0(w)` (R216). A first word that is refused is not queued (R217); the buffer is emptied before a complete
command runs. -/
def pushGp0 (w : Word) (s : State) : Out :=
  match s.gp0Buf with
  | [] =>
    match packetLen w with
    | .error _ => execCommand (refusedCommand w) s
    | .ok n => if n = 1 then executeWords w [] s else .next (queueWord w s)
  | w0 :: args =>
    match packetLen w0 with
    | .error _ => .next (queueWord w s)
    | .ok n =>
      if n = args.length + 2 then executeWords w0 (args ++ [w]) { s with gp0Buf := [] }
      else .next (queueWord w s)

/-- `GP0.WR` (20_memory.md R79): a host write to `GP0_ADDR` performs `PushGp0(v)`. -/
def execGp0Wr (v : Word) (s : State) : Out := pushGp0 v s

/-- A `GpuDecodeError` inside a transfer leaves a fault state (41_dma_block_transfer.md R192). -/
def markTransferFault (s : State) : State :=
  match s.result with
  | .error e => if e.isGpuDecode then s.markFault e else s
  | .noneYet => s
  | .done => s
  | .value _ => s

/-- A word that a transfer pushes to GP0 (R192, 42_dma_linked_list.md R203). -/
def transferPush (w : Word) (s : State) : Out := mapNext (pushGp0 w s) markTransferFault

end Sys2Proof.Machine
end

