-- ==== Sys2Proof/Machine/Transfer.lean ====
section
/-! DEFINITION. The transfers: block transfers (41_dma_block_transfer.md R180 to R192) and the linked-list walker
(42_dma_linked_list.md R200 to R209). -/

namespace Sys2Proof.Machine

/-! ## Block transfers -/

/-- One word sent from RAM to the channel's port (R184): the Gpu port is the GP0 ingress, every other an output. -/
def sendToPort (ch : Chan) (w : Word) (s : State) : Out :=
  if ch = .gpu then transferPush w s else .next (devSend ch w s).done

/-- The `FromRam` arm of `do_block_transfer` (R185), `n` words to go with the cursor at `addr`. -/
def blockFromRam (ch : Chan) (step : Word) (n : Nat) (addr : Word) (s : State) : Out :=
  match n with
  | 0 => .next (transferFinished ch s)
  | n + 1 =>
    thenIfOk (sendToPort ch (ramRead32 s.ram addr.toNat) s) (blockFromRam ch step n (nextAddr step addr))

/-- One word taken from a port and stored at `addr` (R185). -/
def receiveWord (ch : Chan) (addr : Word) (s : State) : State :=
  let r := devRecv ch s
  { r.2 with ram := ramWrite32 r.2.ram addr.toNat r.1 }

/-- The `ToRam` arm of `do_block_transfer` (R185). -/
def blockToRam (ch : Chan) (step : Word) (n : Nat) (addr : Word) (s : State) : State :=
  match n with
  | 0 => transferFinished ch s
  | n + 1 => blockToRam ch step n (nextAddr step addr) (receiveWord ch addr s)

/-- The Otc words (R187, R190). -/
def otcWords (step : Word) (n : Nat) (addr : Word) (ram : List Host.Cell) : List Host.Cell :=
  match n with
  | 0 => ram
  | n + 1 => otcWords step n (nextAddr step addr) (ramWrite32 ram addr.toNat (otcWord addr n))

/-- `XFER.BLOCK.FROMRAM` (R188). -/
def execXferBlockFromram (ch : Chan) (ctl : Word) (s : State) : Out :=
  blockFromRam ch (stepOf ctl) (wordCount ctl (s.chan ch).block) (startAddr (s.chan ch).base) s

/-- `XFER.BLOCK.TORAM` (R189). -/
def execXferBlockToram (ch : Chan) (ctl : Word) (s : State) : Out :=
  .next (blockToRam ch (stepOf ctl) (wordCount ctl (s.chan ch).block) (startAddr (s.chan ch).base) s)

/-- `XFER.BLOCK.OTC` (R190): RAM is written whatever the direction bit holds (R187). -/
def execXferBlockOtc (ctl : Word) (s : State) : Out :=
  .next (transferFinished .otc { s with
    ram := otcWords (stepOf ctl) (wordCount ctl (s.chan .otc).block) (startAddr (s.chan .otc).base) s.ram })

/-- `XFER.INVALID` (R180, 60_exceptions.md R393): `DmaError.InvalidSyncMode`, nothing else changes. `ctl` is the control
word that selected it; no effect depends on it. -/
def execXferInvalid (ch : Chan) (_ctl : Word) (s : State) : Out := .next (s.raise (.invalidSyncMode ch))

/-! ## The linked-list walker -/

/-- The address of payload word `k` of the packet whose header is at `addr` (R203). -/
def payloadAddr (addr : Word) (k : Nat) : Word := dmaAddr (addr + BitVec.ofNat 32 (4 * k))

/-- Push `n` payload words, the first being number `k` (R203). -/
def pushPayload (addr : Word) (n k : Nat) (s : State) : Out :=
  match n with
  | 0 => .next s.done
  | n + 1 => thenIfOk (transferPush (ramRead32 s.ram (payloadAddr addr k).toNat) s) (pushPayload addr n (k + 1))

/-- Move the walker's cursor (R204). -/
def State.setListAddr (s : State) (a : Word) : State := { s with listAddr := a }

/-- `LL.NEXT` (R208): the payload of the packet at the cursor, then the cursor moves to `next & 0x1FFFFC`. -/
def execLlNext (size : Byte) (next : BitVec 23) (s : State) : Out :=
  thenIfOk (pushPayload s.listAddr size.toNat 1 s) (fun t => .next (t.setListAddr (dmaAddr (next.setWidth 32))))

/-- `LL.END` (R209): the payload, then the transfer finishes (R206). The `next` field is read for its bit 23 only (R204). -/
def execLlEnd (size : Byte) (_next : BitVec 23) (s : State) : Out :=
  thenIfOk (pushPayload s.listAddr size.toNat 1 s) (fun t => .next (transferFinished .gpu t))

/-- The walk with `cap` packets left before the runaway (R200): the header at the cursor is read when it is reached. -/
def walkList (cap : Nat) (s : State) : Out :=
  match cap with
  | 0 => .next (runawayAbort s)
  | cap + 1 =>
    let h := ramRead32 s.ram s.listAddr.toNat
    if h.getLsbD 23 then execLlEnd (h.extractLsb' 24 8) (h.extractLsb' 0 23) s
    else thenIfOk (execLlNext (h.extractLsb' 24 8) (h.extractLsb' 0 23) s) (walkList cap)

/-- `do_linked_list` with a cap (R200, R201); the cursor does not outlive the walk (R35). -/
def linkedList (cap : Nat) (s : State) : Out :=
  mapNext (walkList cap (s.setListAddr (startAddr (s.chan .gpu).base))) (fun t => t.setListAddr 0)

/-- `XFER.LIST` (R200) with the cap `LL_CAP` (R205). `ctl` is the control word that selected it; no effect depends on it. -/
def execXferList (_ctl : Word) (s : State) : Out := linkedList Config.llCap s

/-! ## Dispatch and trigger -/

/-- `do_transfer(i)` (R180). -/
def doTransfer (ch : Chan) (s : State) : Out :=
  let ctl := (s.chan ch).ctl
  match selectXfer ch ctl with
  | .fromRam => execXferBlockFromram ch ctl s
  | .toRam => execXferBlockToram ch ctl s
  | .otc => execXferBlockOtc ctl s
  | .list => execXferList ctl s
  | .invalid => execXferInvalid ch ctl s

/-- The trigger rule (40_dma_registers.md R162), after a register of channel `ch` has been stored. -/
def trigger (ch : Chan) (s : State) : Out :=
  if ctlActive (s.chan ch).ctl then doTransfer ch s else .next s.done

end Sys2Proof.Machine
end

