-- ==== Sys2Proof/Machine/DmaRegs.lean ====
section
/-! DEFINITION. The DMA register accesses (40_dma_registers.md R150 to R163). -/

namespace Sys2Proof.Machine

/-- `DMA.WR.BASE i` (R151). -/
def execDmaWrBase (ch : Chan) (v : Word) (s : State) : Out := trigger ch (s.setBase ch (v.extractLsb' 0 24))

/-- `DMA.WR.BLOCK i` (R152). -/
def execDmaWrBlock (ch : Chan) (v : Word) (s : State) : Out := trigger ch (s.setBlock ch v)

/-- `DMA.WR.CHCTL i` (R153). -/
def execDmaWrChctl (ch : Chan) (v : Word) (s : State) : Out := trigger ch (s.setCtl ch v)

/-- `DMA.WR.CONTROL` (R154). -/
def execDmaWrControl (v : Word) (s : State) : Out := .next { s with dmaControl := v, result := .done }

/-- `DMA.WR.INTERRUPT` (R155). -/
def execDmaWrInterrupt (v : Word) (s : State) : Out := .next (s.setInterrupt (interruptWrite s.dmaInterrupt v)).done

/-- `DMA.RD.BASE i` (R156). -/
def execDmaRdBase (ch : Chan) (s : State) : Out := .next (s.answer ((s.chan ch).base.setWidth 32))

/-- `DMA.RD.BLOCK i` (R157). -/
def execDmaRdBlock (ch : Chan) (s : State) : Out := .next (s.answer (s.chan ch).block)

/-- `DMA.RD.CHCTL i` (R158). -/
def execDmaRdChctl (ch : Chan) (s : State) : Out := .next (s.answer (s.chan ch).ctl)

/-- `DMA.RD.CONTROL` (R159). -/
def execDmaRdControl (s : State) : Out := .next (s.answer s.dmaControl)

/-- `DMA.RD.INTERRUPT` (R160). -/
def execDmaRdInterrupt (s : State) : Out := .next (s.answer (interruptWord s.dmaInterrupt))

/-- `DMA.UNMAPPED` (R161): `BusError`, carrying the address as issued (60_exceptions.md R392); nothing changes. The data of
a write goes nowhere. -/
def execDmaUnmapped (seg : Segment) (off : UnmappedOffset) (op : BusOp) (_v : Word) (s : State) : Out :=
  .next (s.raise (.bus .unmapped (seg.bits ||| off.addr) .word op))

end Sys2Proof.Machine
end

