-- ==== Sys2Proof/Machine/Bus.lean ====
section
/-! DEFINITION. The bus (20_memory.md R75 to R80): the accesses that are no instruction of the table (RAM, the units
outside the block, the refused accesses), and the other events from outside. -/

namespace Sys2Proof.Machine

/-- What a masked address selects besides the DMA window and the GP0 ingress (R76). `ioOther`: an I/O register the block
does not own. -/
inductive BusTarget
  | ram
  | expansion1
  | ioOther
  | bios
  | cacheControl
  | unmapped
  deriving DecidableEq, Repr

/-- The decode table (R76), rows 2 and 5 half-open (90_conflicts.md C6). -/
def busTarget (m : Word) : BusTarget :=
  let a := m.toNat
  if a < 0x00200000 then .ram
  else if 0x1F000000 ≤ a ∧ a < 0x1F800000 then .expansion1
  else if 0x1F801000 ≤ a ∧ a < 0x1F802000 then .ioOther
  else if 0x1FC00000 ≤ a ∧ a < 0x1FC80000 then .bios
  else if 0xFFFE0000 ≤ a ∧ a < 0xFFFE0200 then .cacheControl
  else .unmapped

/-- The number of bytes of an access (R80). -/
def Width.bytes : Width → Nat
  | .byte => 1
  | .half => 2
  | .word => 4

/-- Natural alignment (R62, R78). -/
def aligned (a : Nat) (w : Width) : Bool := a % Width.bytes w == 0

/-- The access ends in a `BusError` (60_exceptions.md R392) and changes nothing else. -/
def busError (k : BusErrorKind) (a : Access) (s : State) : State := s.raise (.bus k a.addr a.width a.op)

/-- A read of RAM (R62), zero-extended to a word (log entry 27). -/
def ramLoad (ram : List Host.Cell) (w : Width) (a : Nat) : Word :=
  match w with
  | .byte => (ramRead8 ram a).setWidth 32
  | .half => (ramRead16 ram a).setWidth 32
  | .word => ramRead32 ram a

/-- A write of RAM (R62): the low bits of the data, of the access's width. -/
def ramStore (ram : List Host.Cell) (w : Width) (a : Nat) (v : Word) : List Host.Cell :=
  match w with
  | .byte => ramWrite8 ram a (v.extractLsb' 0 8)
  | .half => ramWrite16 ram a (v.extractLsb' 0 16)
  | .word => ramWrite32 ram a v

/-- All ones of a width (R76, Expansion-1). -/
def allOnes : Width → Word
  | .byte => 0xFF#32
  | .half => 0xFFFF#32
  | .word => 0xFFFFFFFF#32

/-- An access that the decoder has found to be neither a DMA register nor the GP0 ingress (R76, R78, R80): the row first,
then the alignment (R398). Log entry 12 for the units outside the block. -/
def busOther (a : Access) (s : State) : Out :=
  let m := maskAddr a.addr
  match busTarget m with
  | .unmapped => .next (busError .unmapped a s)
  | .ioOther => .next (busError .unmapped a s)
  | .ram =>
    if !aligned m.toNat a.width then .next (busError .unaligned a s)
    else
      match a.op with
      | .read => .next (s.answer (ramLoad s.ram a.width m.toNat))
      | .write => .next { s with ram := ramStore s.ram a.width m.toNat a.data, result := .done }
  | .expansion1 =>
    if !aligned m.toNat a.width then .next (busError .unaligned a s)
    else
      match a.op with
      | .read => .next (s.answer (allOnes a.width))
      | .write => .fault (.outsideBlock .expansion1 a)
  | .bios =>
    if !aligned m.toNat a.width then .next (busError .unaligned a s)
    else .fault (.outsideBlock .bios a)
  | .cacheControl =>
    if !aligned m.toNat a.width then .next (busError .unaligned a s)
    else
      match a.op with
      | .read => .fault (.outsideBlock .cacheControl a)
      | .write => .next s.done

/-- An access that the decoder rejects (R78, R392). -/
def rejectedAccess (r : Reject) (a : Access) (s : State) : Out :=
  match r with
  | .busError k => .next (busError k a s)
  | .notRegister => busOther a s
  | .notEnabled => busOther a s
  | .length _ => busOther a s

/-- A word vector of the wrong length at the Rasterizer's own entry (43_gp0_ingress.md R219). That this error leaves no fault
mark is the model's reading: DEDUCED, log entry 4. -/
def rejectedCommand (w0 : Word) (s : State) : Out := .next (s.raise (.length w0))

/-- The Gpu collaborator sets the drawing environment (48_line_env.md R377, 70_reset_and_hazards.md R442). -/
def setEnvironment (area : DrawArea) (offset : DrawOffset) (semi : BitVec 2) (page : TexPage) (s : State) : State :=
  { s with drawArea := area, drawOffset := offset, semiOp := semi, texPage := page }

/-- The front-end reads a pixel (20_memory.md R73). -/
def readPixel (x : BitVec 10) (y : BitVec 9) (s : State) : State :=
  s.answer ((vramRead s.vram x.toNat y.toNat).setWidth 32)

end Sys2Proof.Machine
end

