-- ==== Sys2Proof/Machine/Dispatch.lean ====
section
/-! DEFINITION. One arm per constructor of `Instr`, each a direct call of its meaning. -/

namespace Sys2Proof.Machine

def exec (i : Instr) (s : State) : Host.Outcome State Fault Refusal :=
  match i with
  | .dmaWrBase ch v => Sys2Proof.Machine.execDmaWrBase ch v s
  | .dmaWrBlock ch v => Sys2Proof.Machine.execDmaWrBlock ch v s
  | .dmaWrChctl ch v => Sys2Proof.Machine.execDmaWrChctl ch v s
  | .dmaRdBase ch => Sys2Proof.Machine.execDmaRdBase ch s
  | .dmaRdBlock ch => Sys2Proof.Machine.execDmaRdBlock ch s
  | .dmaRdChctl ch => Sys2Proof.Machine.execDmaRdChctl ch s
  | .dmaWrControl v => Sys2Proof.Machine.execDmaWrControl v s
  | .dmaWrInterrupt v => Sys2Proof.Machine.execDmaWrInterrupt v s
  | .dmaRdControl => Sys2Proof.Machine.execDmaRdControl s
  | .dmaRdInterrupt => Sys2Proof.Machine.execDmaRdInterrupt s
  | .dmaUnmapped seg off op v => Sys2Proof.Machine.execDmaUnmapped seg off op v s
  | .gp0Wr v => Sys2Proof.Machine.execGp0Wr v s
  | .xferBlockFromram ch ctl => Sys2Proof.Machine.execXferBlockFromram ch ctl s
  | .xferBlockToram ch ctl => Sys2Proof.Machine.execXferBlockToram ch ctl s
  | .xferBlockOtc ctl => Sys2Proof.Machine.execXferBlockOtc ctl s
  | .xferList ctl => Sys2Proof.Machine.execXferList ctl s
  | .xferInvalid ch ctl => Sys2Proof.Machine.execXferInvalid ch ctl s
  | .llNext size next => Sys2Proof.Machine.execLlNext size next s
  | .llEnd size next => Sys2Proof.Machine.execLlEnd size next s
  | .triF p => Sys2Proof.Machine.execTriF p s
  | .triFR p => Sys2Proof.Machine.execTriFR p s
  | .triFS p => Sys2Proof.Machine.execTriFS p s
  | .triFSR p => Sys2Proof.Machine.execTriFSR p s
  | .triFT p => Sys2Proof.Machine.execTriFT p s
  | .triFTR p => Sys2Proof.Machine.execTriFTR p s
  | .triFTS p => Sys2Proof.Machine.execTriFTS p s
  | .triFTSR p => Sys2Proof.Machine.execTriFTSR p s
  | .quadF p => Sys2Proof.Machine.execQuadF p s
  | .quadFR p => Sys2Proof.Machine.execQuadFR p s
  | .quadFS p => Sys2Proof.Machine.execQuadFS p s
  | .quadFSR p => Sys2Proof.Machine.execQuadFSR p s
  | .quadFT p => Sys2Proof.Machine.execQuadFT p s
  | .quadFTR p => Sys2Proof.Machine.execQuadFTR p s
  | .quadFTS p => Sys2Proof.Machine.execQuadFTS p s
  | .quadFTSR p => Sys2Proof.Machine.execQuadFTSR p s
  | .triG p => Sys2Proof.Machine.execTriG p s
  | .triGR p => Sys2Proof.Machine.execTriGR p s
  | .triGS p => Sys2Proof.Machine.execTriGS p s
  | .triGSR p => Sys2Proof.Machine.execTriGSR p s
  | .triGT p => Sys2Proof.Machine.execTriGT p s
  | .triGTR p => Sys2Proof.Machine.execTriGTR p s
  | .triGTS p => Sys2Proof.Machine.execTriGTS p s
  | .triGTSR p => Sys2Proof.Machine.execTriGTSR p s
  | .quadG p => Sys2Proof.Machine.execQuadG p s
  | .quadGR p => Sys2Proof.Machine.execQuadGR p s
  | .quadGS p => Sys2Proof.Machine.execQuadGS p s
  | .quadGSR p => Sys2Proof.Machine.execQuadGSR p s
  | .quadGT p => Sys2Proof.Machine.execQuadGT p s
  | .quadGTR p => Sys2Proof.Machine.execQuadGTR p s
  | .quadGTS p => Sys2Proof.Machine.execQuadGTS p s
  | .quadGTSR p => Sys2Proof.Machine.execQuadGTSR p s
  | .rectV p => Sys2Proof.Machine.execRectV p s
  | .rectVR p => Sys2Proof.Machine.execRectVR p s
  | .rectVS p => Sys2Proof.Machine.execRectVS p s
  | .rectVSR p => Sys2Proof.Machine.execRectVSR p s
  | .rectVT p => Sys2Proof.Machine.execRectVT p s
  | .rectVTR p => Sys2Proof.Machine.execRectVTR p s
  | .rectVTS p => Sys2Proof.Machine.execRectVTS p s
  | .rectVTSR p => Sys2Proof.Machine.execRectVTSR p s
  | .rect1 p => Sys2Proof.Machine.execRect1 p s
  | .rect1R p => Sys2Proof.Machine.execRect1R p s
  | .rect1S p => Sys2Proof.Machine.execRect1S p s
  | .rect1SR p => Sys2Proof.Machine.execRect1SR p s
  | .rect1T p => Sys2Proof.Machine.execRect1T p s
  | .rect1TR p => Sys2Proof.Machine.execRect1TR p s
  | .rect1TS p => Sys2Proof.Machine.execRect1TS p s
  | .rect1TSR p => Sys2Proof.Machine.execRect1TSR p s
  | .rect8 p => Sys2Proof.Machine.execRect8 p s
  | .rect8R p => Sys2Proof.Machine.execRect8R p s
  | .rect8S p => Sys2Proof.Machine.execRect8S p s
  | .rect8SR p => Sys2Proof.Machine.execRect8SR p s
  | .rect8T p => Sys2Proof.Machine.execRect8T p s
  | .rect8TR p => Sys2Proof.Machine.execRect8TR p s
  | .rect8TS p => Sys2Proof.Machine.execRect8TS p s
  | .rect8TSR p => Sys2Proof.Machine.execRect8TSR p s
  | .rect16 p => Sys2Proof.Machine.execRect16 p s
  | .rect16R p => Sys2Proof.Machine.execRect16R p s
  | .rect16S p => Sys2Proof.Machine.execRect16S p s
  | .rect16SR p => Sys2Proof.Machine.execRect16SR p s
  | .rect16T p => Sys2Proof.Machine.execRect16T p s
  | .rect16TR p => Sys2Proof.Machine.execRect16TR p s
  | .rect16TS p => Sys2Proof.Machine.execRect16TS p s
  | .rect16TSR p => Sys2Proof.Machine.execRect16TSR p s
  | .drawmode page semi => Sys2Proof.Machine.execDrawmode page semi s
  | .areaTl x y => Sys2Proof.Machine.execAreaTl x y s
  | .areaBr x y => Sys2Proof.Machine.execAreaBr x y s
  | .offset dx dy => Sys2Proof.Machine.execOffset dx dy s
  | .line rest => Sys2Proof.Machine.execLine rest s
  | .gp0Unknown00 rest => Sys2Proof.Machine.execGp0Unknown00 rest s
  | .gp0Unknown80 rest => Sys2Proof.Machine.execGp0Unknown80 rest s
  | .gp0UnknownA0 rest => Sys2Proof.Machine.execGp0UnknownA0 rest s
  | .gp0UnknownC0 rest => Sys2Proof.Machine.execGp0UnknownC0 rest s
  | .gp0UnknownE0 op arg => Sys2Proof.Machine.execGp0UnknownE0 op arg s

end Sys2Proof.Machine
end

