-- ==== Sys2Proof/Machine/Step.lean ====
section
/-! DEFINITION. The step: one event from outside, with everything it triggers (20_memory.md R85, 70_reset_and_hazards.md
R440, R441), and how the host's question places a word of the table before the machine. -/

namespace Sys2Proof.Machine

/-- One event (R442). A bus access that the decoder reads as an instruction is that instruction; so is a word vector at
the Rasterizer's own entry. -/
def runEvent (e : HostEvent) (s : State) : Host.Outcome State Fault Refusal :=
  match e with
  | .bus a =>
    match decode (.reg a) with
    | .ok i => exec i s
    | .error r => rejectedAccess r a s
  | .execute w0 args =>
    match decode (.gp0 w0 args) with
    | .ok i => exec i s
    | .error _ => rejectedCommand w0 s
  | .setEnv area offset semi page => .next (setEnvironment area offset semi page s)
  | .readPixel x y => .next (readPixel x y s)

/-- One step: the oldest event is taken and runs to its end; with none pending nothing changes (R441). -/
def step (s : State) : Host.Outcome State Fault Refusal :=
  match s.pending with
  | [] => .next s
  | e :: rest => runEvent e { s with pending := rest }

/-- An event put before those that are pending. -/
def State.withEvent (s : State) (e : HostEvent) : State := { s with pending := e :: s.pending }

/-- A host write of a word. -/
def hostWrite (addr v : Word) : HostEvent := .bus ⟨.write, addr, .word, v⟩

/-- A word of RAM placed from outside. -/
def State.withRamWord (s : State) (a v : Word) : State := { s with ram := ramWrite32 s.ram a.toNat v }

/-- A control word with `manual_trigger` set where Manual mode needs it to be active (R40). -/
def startable (ctl : Word) : Word := if ctl.extractLsb' 9 2 = 0#2 then ctl ||| 0x10000000#32 else ctl

/-- An end marker for a list (R107). -/
def endMarker : Word := 0x00FFFFFF#32

/-- Where a list header is placed: not where its own `next` points. -/
def headerPlace (h : Word) : Word := if dmaAddr h = 0x1000#32 then 0x2000#32 else 0x1000#32

/-- The state in which the very next step runs the instruction of the table's bits `w` (log entry 2): a register access or
a packet is the next event; a control word is the data of the write that starts it (with an end marker at the list's start
for the linked-list mode); a list header lies in RAM, followed by an end marker where it points, and the write that walks
it is the next event. -/
def State.withFetchWord (s : State) (nbits w : Nat) : State :=
  match tableEncoded (w % 2 ^ nbits) with
  | .reg a => s.withEvent (.bus a)
  | .gp0 w0 args => s.withEvent (.execute w0 args)
  | .chctl ch ctl =>
    (if selectXfer ch ctl = .list then s.withRamWord (startAddr (s.chan ch).base) endMarker else s).withEvent
      (hostWrite (chanAddr ch 2) (startable ctl))
  | .llhdr h =>
    let place := headerPlace h
    (((s.setBase .gpu (place.extractLsb' 0 24)).withRamWord (dmaAddr h) endMarker).withRamWord place h).withEvent
      (hostWrite (chanAddr .gpu 2) 0x01000401#32)

end Sys2Proof.Machine
end

