-- ==== Sys2Proof/Safety.lean ====
section
/-! DEFINITION. What the claims speak of: the invariant, the frames, and the results of drawing and of transfers said
pixel by pixel and word by word, beside the machine and not through its loops. -/

namespace Sys2Proof.Machine

/-! ## The invariant -/

/-- The words queued are a proper part of one packet (43_gp0_ingress.md R216, R220). -/
def bufferFramed (buf : List Word) : Bool :=
  match buf with
  | [] => true
  | w0 :: rest =>
    match packetLen w0 with
    | .ok n => decide (rest.length + 1 < n)
    | .error _ => false

/-- What every step keeps: both memories in canonical form, the queued words a proper part of one packet, and no
linked-list cursor left behind between two steps (10_state.md R35). -/
def BlockInv (s : State) : Prop :=
  Memory.wf s.ram = true ∧ Vram.wf s.vram = true ∧ bufferFramed s.gp0Buf = true ∧ s.listAddr = 0

/-! ## Safe runs -/

/-- No error after which the spec wants nothing claimed has happened (60_exceptions.md R390). -/
def NoFault (s : State) : Prop := s.streamFault = none

/-- An outcome that is a next state. -/
def Completes (o : Out) : Prop := ∃ t, o = .next t

/-! ## Frames -/

/-- From `s` to `t` only VRAM has changed, and the outcome of the access (44_polygon.md R243(e), 47_rectangle.md R337(d)). -/
def DrawsOnly (s t : State) : Prop := t = { s with vram := t.vram, result := t.result }

/-- From `s` to `t` only what a GP0 word can reach has changed: VRAM, the drawing environment, the command buffer, the
outcome and the model's fault mark (20_memory.md R60, 41_dma_block_transfer.md R191). -/
def GpuOnly (s t : State) : Prop :=
  t = { s with
    vram := t.vram
    drawArea := t.drawArea
    drawOffset := t.drawOffset
    semiOp := t.semiOp
    texPage := t.texPage
    gp0Buf := t.gp0Buf
    result := t.result
    streamFault := t.streamFault }

/-- The instruction is a GP0 command (30_encoding.md R120). -/
def isGp0 (i : Instr) : Bool :=
  match encode i with
  | .gp0 _ _ => true
  | .reg _ => false
  | .chctl _ _ => false
  | .llhdr _ => false

/-- The instruction is a polygon or a rectangle: `op[7:5]` is 1 or 3 (30_encoding.md R114). -/
def isPrimitive (i : Instr) : Bool :=
  match encode i with
  | .gp0 w0 _ => w0.extractLsb' 29 3 == 1#3 || w0.extractLsb' 29 3 == 3#3
  | .reg _ => false
  | .chctl _ _ => false
  | .llhdr _ => false

/-- The instruction draws one triangle or one rectangle: a primitive that is not a quad (bit 27, `op[3]`, of a polygon). -/
def isOneSurface (i : Instr) : Bool :=
  match encode i with
  | .gp0 w0 _ => (w0.extractLsb' 29 3 == 1#3 && !w0.getLsbD 27) || w0.extractLsb' 29 3 == 3#3
  | .reg _ => false
  | .chctl _ _ => false
  | .llhdr _ => false

/-! ## Where a command comes from -/

/-- The instruction pushes to GP0 words it reads from RAM, or may trigger a transfer that does (43_gp0_ingress.md R215): the
register writes and transfers of the Gpu channel, and the rows of the list walk. -/
def FeedsGp0 (i : Instr) : Prop :=
  (∃ v, i = .dmaWrBase .gpu v ∨ i = .dmaWrBlock .gpu v ∨ i = .dmaWrChctl .gpu v) ∨
    (∃ ctl, i = .xferBlockFromram .gpu ctl ∨ i = .xferList ctl) ∨
    (∃ size next, i = .llNext size next ∨ i = .llEnd size next)

/-- The instruction is a command of one word whose command byte is in `ops`; or a GP0 word, the first of its packet, that
is such a command; or it feeds GP0 from a RAM in which some aligned word is such a command. -/
def BringsCommand (ops : List (BitVec 8)) (i : Instr) (s : State) : Prop :=
  (∃ w0, encode i = .gp0 w0 [] ∧ opOf w0 ∈ ops) ∨
    (∃ w, i = .gp0Wr w ∧ s.gp0Buf = [] ∧ opOf w ∈ ops) ∨
    (FeedsGp0 i ∧ ∃ a : Word, opOf (ramRead32 s.ram (dmaAddr a).toNat) ∈ ops)

/-! ## Interrupt edges and refused accesses -/

/-- How many `dma_irq` events the change from `s` to `t` is worth: one if `master_flag` rose (40_dma_registers.md R163). -/
def irqEdge (s t : State) : Nat := if !masterFlag s.dmaInterrupt && masterFlag t.dmaInterrupt then 1 else 0

/-- The access is one of those whose behaviour belongs to a unit outside the block (20_memory.md R76, log entry 12). -/
def AtUnit (part : ExternalUnit) (a : Access) : Prop :=
  match part with
  | .expansion1 => 0x1F000000 ≤ (maskAddr a.addr).toNat ∧ (maskAddr a.addr).toNat < 0x1F800000 ∧ a.op = .write
  | .bios => 0x1FC00000 ≤ (maskAddr a.addr).toNat ∧ (maskAddr a.addr).toNat < 0x1FC80000
  | .cacheControl => 0xFFFE0000 ≤ (maskAddr a.addr).toNat ∧ (maskAddr a.addr).toNat < 0xFFFE0200 ∧ a.op = .read

/-- The masked address lies in one of the five rows of the decode table (R76). -/
def InSomeRow (m : Nat) : Prop :=
  m < 0x00200000 ∨ (0x1F000000 ≤ m ∧ m < 0x1F800000) ∨ (0x1F801000 ≤ m ∧ m < 0x1F802000) ∨
    (0x1FC00000 ≤ m ∧ m < 0x1FC80000) ∨ (0xFFFE0000 ≤ m ∧ m < 0xFFFE0200)

/-- The masked address lies in a row of the decode table whose unit is outside the block and takes every width (R76, R78):
Expansion-1, Bios, cache control. -/
def InOuterUnit (m : Nat) : Prop :=
  (0x1F000000 ≤ m ∧ m < 0x1F800000) ∨ (0x1FC00000 ≤ m ∧ m < 0x1FC80000) ∨ (0xFFFE0000 ≤ m ∧ m < 0xFFFE0200)

/-! ## Drawing, one pixel at a time -/

/-- The pixel lies in the drawing area, corners included (10_state.md R30). -/
def inArea (area : DrawArea) (x y : Nat) : Bool :=
  decide (area.minX.toNat ≤ x) && decide (x ≤ area.maxX.toNat) && decide (area.minY.toNat ≤ y) &&
    decide (y ≤ area.maxY.toNat)

/-- The pixel `(x, y)` of VRAM. -/
def State.pixel (s : State) (x y : Nat) : Half := vramRead s.vram x y

/-- What the write of a front colour leaves in a pixel that held `back` (46_pixel_pipeline.md R312 to R314). -/
def written (ctx : Ctx) (front back : Half) : Half := if blends ctx front then blend ctx.op back front else front

/-- What a texel of `(u, v)` sampled from `vram` leaves in a pixel that held `back` (R310, R311, R314). -/
def textured (vram : List (Nat × BitVec 16)) (ctx : Ctx) (u v : Nat) (back : Half) : Half :=
  if sample vram ctx u v = 0 then back else written ctx (frontOf ctx (sample vram ctx u v)) back

/-- The pixel `(x, y)` is covered by the triangle (45_triangle_raster.md R282, R285), whatever the drawing area. -/
def covers (v0 v1 v2 : Vert) (x y : Int) : Bool :=
  match setup v0 v1 v2 with
  | none => false
  | some t => t.inside x y

/-- A pixel that held `back` after a triangle: painted where the triangle covers it inside the drawing area (R283 to
R288; no bounding box is needed, because a covered pixel lies in it). -/
def trianglePixel (area : DrawArea) (v0 v1 v2 : Vert) (paint : Tri → Half → Half) (x y : Nat) (back : Half) : Half :=
  match setup v0 v1 v2 with
  | none => back
  | some t => if inArea area x y && t.inside x y then paint t back else back

/-- The texel of a triangle's pixel (46_pixel_pipeline.md R303). -/
def texelPaint (vram : List (Nat × BitVec 16)) (ctx : Ctx) (x y : Nat) (t : Tri) (back : Half) : Half :=
  textured vram ctx (t.interpolate x y t.v0.t.u t.v1.t.u t.v2.t.u) (t.interpolate x y t.v0.t.v t.v1.t.v t.v2.t.v) back

/-- The pixel lies in the rectangle of corner `(px, py)` and size `w` by `h` and in the drawing area (47_rectangle.md
R332). -/
def inRect (area : DrawArea) (px py : Int) (w h x y : Nat) : Bool :=
  inArea area x y && decide (px ≤ x) && decide ((x : Int) ≤ px + w - 1) && decide (py ≤ y) &&
    decide ((y : Int) ≤ py + h - 1)

/-- The VRAM column, counted from the page's, of the word that holds texel column `u` (46_pixel_pipeline.md R306 to R308). -/
def texelColumn (rt : RenderType) (u : Nat) : Nat :=
  match rt with
  | .texP4 => u / 4
  | .texP8 => u / 2
  | .texD16 => u
  | .shaded => u

/-- How many CLUT entries a render type can select (R306 to R309). -/
def clutSize (rt : RenderType) : Nat :=
  match rt with
  | .texP4 => 16
  | .texP8 => 256
  | .texD16 => 0
  | .shaded => 0

/-- No texture word and no CLUT entry that the primitive can read lies in the drawing area ("keeps a primitive's texture
and CLUT outside its own destination", 70_reset_and_hazards.md R436). -/
def ReadsOutside (area : DrawArea) (ctx : Ctx) : Prop :=
  (∀ u v, u < 256 → v < 256 →
    inArea area ((baseX ctx.page + texelColumn ctx.rt u) % 1024) ((baseY ctx.page + v) % 512) = false) ∧
  (∀ k, k < clutSize ctx.rt → inArea area ((palX ctx.pal + k) % 1024) (palY ctx.pal % 512) = false)

/-- The render type that a depth field gives (44_polygon.md R240). -/
def DepthGives (depth : BitVec 2) (rt : RenderType) : Prop :=
  (depth = 0#2 ∧ rt = .texP4) ∨ (depth = 1#2 ∧ rt = .texP8) ∨ (depth = 2#2 ∧ rt = .texD16)

/-- The instruction succeeds, changes nothing but VRAM, and leaves pixel `(x, y)` as `after x y` of what it held. -/
def Draws (i : Instr) (s : State) (after : Nat → Nat → Half → Half) : Prop :=
  ∃ t, exec i s = .next t ∧ t.result = .done ∧ DrawsOnly s t ∧
    ∀ x y, x < 1024 → y < 512 → t.pixel x y = after x y (s.pixel x y)

/-- The drawing area is a single pixel. -/
def OnePixel (area : DrawArea) : Prop := area.minX = area.maxX ∧ area.minY = area.maxY

/-- A textured primitive succeeds, changes nothing but VRAM and there only the pixels it covers; and where it does not read
what it writes (its texture and CLUT outside the drawing area, or an area of one pixel) it leaves each pixel as
`after x y` of what it held. A claim about the order of the pixels (45_triangle_raster.md R287) cuts every other area into
areas of one pixel. -/
def DrawsTextured (i : Instr) (s : State) (ctx : Ctx) (covered : Nat → Nat → Bool) (after : Nat → Nat → Half → Half) :
    Prop :=
  ∃ t, exec i s = .next t ∧ t.result = .done ∧ DrawsOnly s t ∧
    (∀ x y, x < 1024 → y < 512 → covered x y = false → t.pixel x y = s.pixel x y) ∧
    (ReadsOutside s.drawArea ctx ∨ OnePixel s.drawArea →
      ∀ x y, x < 1024 → y < 512 → t.pixel x y = after x y (s.pixel x y))

/-! ## Transfers -/

/-- The number of words that a control word and a `block_control` word count (41_dma_block_transfer.md R182, 30_encoding.md
R102): the low half of `block_control` in Manual mode (`sync_mode` 0), and in Request mode the exact product of its two
halves, so that a half of 0 counts none. -/
def Counts (ctl block : Word) (n : Nat) : Prop :=
  (ctl.toNat / 512 % 4 = 0 → n = block.toNat % 65536) ∧
    (ctl.toNat / 512 % 4 = 1 → n = (block.toNat % 65536) * (block.toNat / 65536))

/-- Cursor number `k` of a block transfer that starts at `base` with the given step, modulo 2 MiB and word-aligned (R181,
R183, R185). -/
def cursor (base : BitVec 24) (step : Word) (k : Nat) : Word :=
  dmaAddr (base.setWidth 32 + BitVec.ofNat 32 k * step)

/-- The RAM words of the first `n` cursors, in order. -/
def cursorWords (ram : List Host.Cell) (base : BitVec 24) (step : Word) (n : Nat) : List Word :=
  (List.range n).map fun k => ramRead32 ram (cursor base step k).toNat

/-- Word number `k` that a port supplies: the words laid ready, then free values (R184). -/
def received (s : State) (ch : Chan) (k : Nat) : Word :=
  let ready := s.devIn.get ch
  if h : k < ready.length then ready[k] else Config.devWord ch.num (s.devDraws + (k - ready.length))

/-- The byte address `a` lies in the word at cursor `c`. -/
def inWord (c : Word) (a : Nat) : Prop := c.toNat ≤ a ∧ a < c.toNat + 4

/-- Cursor `k` of `n` is the last of them at its address: nothing later overwrites its word (R189). -/
def LastAt (base : BitVec 24) (step : Word) (n k : Nat) : Prop :=
  k < n ∧ ∀ k', k < k' → k' < n → cursor base step k' ≠ cursor base step k

/-- Push words to GP0 one after another, as a transfer does, until one of them ends in an error (R185, R192). -/
def pushWords (ws : List Word) (s : State) : Out :=
  match ws with
  | [] => .next s.done
  | w :: rest => thenIfOk (transferPush w s) (pushWords rest)

/-- Write words to the GP0 ingress one after another, until one of them ends in an error. -/
def writeGp0 (ws : List Word) (s : State) : Out :=
  match ws with
  | [] => .next s
  | w :: rest => thenIfOk (exec (.gp0Wr w) s) (writeGp0 rest)

/-- The payload of the packet whose header is at `addr`: `size` words, each address wrapped on its own (42_dma_linked_list.md
R203). -/
def payloadWords (ram : List Host.Cell) (addr : Word) : List Word :=
  (List.range ((ramRead32 ram addr.toNat).extractLsb' 24 8).toNat).map fun k =>
    ramRead32 ram (dmaAddr (addr + BitVec.ofNat 32 (4 * (k + 1)))).toNat

/-- The addresses are those of a linked list in RAM: each packet but the last leads to the next, the last ends the list
(R204). -/
def IsList (ram : List Host.Cell) : List Word → Prop
  | [] => False
  | [a] => (ramRead32 ram a.toNat).getLsbD 23 = true
  | a :: b :: rest =>
    (ramRead32 ram a.toNat).getLsbD 23 = false ∧ dmaAddr (ramRead32 ram a.toNat) = b ∧ IsList ram (b :: rest)

/-- The addresses are those of packets that lead each to the next, none of them ending the list (R204, R207). -/
def IsEndless (ram : List Host.Cell) : List Word → Prop
  | [] => True
  | [a] => (ramRead32 ram a.toNat).getLsbD 23 = false
  | a :: b :: rest =>
    (ramRead32 ram a.toNat).getLsbD 23 = false ∧ dmaAddr (ramRead32 ram a.toNat) = b ∧ IsEndless ram (b :: rest)

end Sys2Proof.Machine
end

