-- ==== Sys2Proof/WellFormed.lean ====
section
/-! DEFINITION. Which terms of `Instr` the encodings admit. Only the formats `CHCTL` and `ENV` (the unknown range of 0xE0
to 0xFF) and an unmapped read need a check: everywhere else the operand types hold exactly what the encoding can say. -/

namespace Sys2Proof

/-- `enable(24)` of a `channel_control` word (30_encoding.md R103). -/
def WellFormed.enabled (ctl : Word) : Bool := ctl.getLsbD 24

/-- `sync_mode(9..10)` of a `channel_control` word (R103). -/
def WellFormed.sync (ctl : Word) : BitVec 2 := ctl.extractLsb' 9 2

/-- `transfer_direction(0)` is `FromRam` (R103, R104). -/
def WellFormed.fromRam (ctl : Word) : Bool := ctl.getLsbD 0

/-- The block modes, Manual 0 and Request 1 (R104). -/
def WellFormed.blockMode (ctl : Word) : Bool := !ctl.getLsbD 10

/-- The instruction is one that an encoding of the spec stands for. -/
def Instr.wellFormed : Instr → Bool
  | .dmaUnmapped _ _ op v => op == .write || v == 0
  | .xferBlockFromram ch ctl =>
    ch != .otc && WellFormed.enabled ctl && WellFormed.blockMode ctl && WellFormed.fromRam ctl
  | .xferBlockToram ch ctl =>
    ch != .otc && WellFormed.enabled ctl && WellFormed.blockMode ctl && !WellFormed.fromRam ctl
  | .xferBlockOtc ctl => WellFormed.enabled ctl && WellFormed.blockMode ctl
  | .xferList ctl => WellFormed.enabled ctl && WellFormed.sync ctl == 2 && WellFormed.fromRam ctl
  | .xferInvalid ch ctl =>
    WellFormed.enabled ctl && (WellFormed.sync ctl == 3 ||
      (WellFormed.sync ctl == 2 && (ch != .gpu || !WellFormed.fromRam ctl)))
  | .gp0UnknownE0 op _ => op != 1 && op != 3 && op != 4 && op != 5
  | .dmaWrBase _ _ => true
  | .dmaWrBlock _ _ => true
  | .dmaWrChctl _ _ => true
  | .dmaRdBase _ => true
  | .dmaRdBlock _ => true
  | .dmaRdChctl _ => true
  | .dmaWrControl _ => true
  | .dmaWrInterrupt _ => true
  | .dmaRdControl => true
  | .dmaRdInterrupt => true
  | .gp0Wr _ => true
  | .llNext _ _ => true
  | .llEnd _ _ => true
  | .triF _ => true
  | .triFR _ => true
  | .triFS _ => true
  | .triFSR _ => true
  | .triFT _ => true
  | .triFTR _ => true
  | .triFTS _ => true
  | .triFTSR _ => true
  | .quadF _ => true
  | .quadFR _ => true
  | .quadFS _ => true
  | .quadFSR _ => true
  | .quadFT _ => true
  | .quadFTR _ => true
  | .quadFTS _ => true
  | .quadFTSR _ => true
  | .triG _ => true
  | .triGR _ => true
  | .triGS _ => true
  | .triGSR _ => true
  | .triGT _ => true
  | .triGTR _ => true
  | .triGTS _ => true
  | .triGTSR _ => true
  | .quadG _ => true
  | .quadGR _ => true
  | .quadGS _ => true
  | .quadGSR _ => true
  | .quadGT _ => true
  | .quadGTR _ => true
  | .quadGTS _ => true
  | .quadGTSR _ => true
  | .rectV _ => true
  | .rectVR _ => true
  | .rectVS _ => true
  | .rectVSR _ => true
  | .rectVT _ => true
  | .rectVTR _ => true
  | .rectVTS _ => true
  | .rectVTSR _ => true
  | .rect1 _ => true
  | .rect1R _ => true
  | .rect1S _ => true
  | .rect1SR _ => true
  | .rect1T _ => true
  | .rect1TR _ => true
  | .rect1TS _ => true
  | .rect1TSR _ => true
  | .rect8 _ => true
  | .rect8R _ => true
  | .rect8S _ => true
  | .rect8SR _ => true
  | .rect8T _ => true
  | .rect8TR _ => true
  | .rect8TS _ => true
  | .rect8TSR _ => true
  | .rect16 _ => true
  | .rect16R _ => true
  | .rect16S _ => true
  | .rect16SR _ => true
  | .rect16T _ => true
  | .rect16TR _ => true
  | .rect16TS _ => true
  | .rect16TSR _ => true
  | .drawmode _ _ => true
  | .areaTl _ _ => true
  | .areaBr _ _ => true
  | .offset _ _ => true
  | .line _ => true
  | .gp0Unknown00 _ => true
  | .gp0Unknown80 _ => true
  | .gp0UnknownA0 _ => true
  | .gp0UnknownC0 _ => true

end Sys2Proof
end

