-- ==== Sys2Proof/Certificates/Slice0/Obligations.lean ====
section
/-! DEFINITION. The statements for the provers. Each docstring names the rules of spec/ it formalises; where a clause rests
on a choice that the spec marks as its own decision or that the model made, it says so. -/

open Sys2Proof Sys2Proof.Machine

/-! ## Encoding -/

/-- 30_encoding.md R100 to R121: every operand of every well-formed instruction comes back from its encoding. The field
layouts are those the spec marks as general knowledge (log entry 15). -/
def Obligations.EveryInstructionDecodesFromItsEncoding : Prop :=
  ∀ i : Instr, i.wellFormed = true → decode (encode i) = .ok i

/-- The decoder gives well-formed instructions only (30_encoding.md R103, R120, R121). -/
def Obligations.EveryDecodedInstructionIsWellFormed : Prop :=
  ∀ (e : Encoded) (i : Instr), decode e = .ok i → i.wellFormed = true

/-- Words of each format, written out from 30_encoding.md and the examples of the rules, decode to what the rule says. -/
def Obligations.SampleWordsDecodeAsTheRulesSay : Prop :=
  decode (.reg ⟨.write, 0x1F8010A0#32, .word, 0x80001003#32⟩) = .ok (.dmaWrBase .gpu 0x80001003#32) ∧
  decode (.reg ⟨.read, 0xBF8010F4#32, .word, 0#32⟩) = .ok .dmaRdInterrupt ∧
  decode (.chctl .otc 0x11000002#32) = .ok (.xferBlockOtc 0x11000002#32) ∧
  decode (.chctl .gpu 0x01000401#32) = .ok (.xferList 0x01000401#32) ∧
  decode (.llhdr 0x03001230#32) = .ok (.llNext 3#8 0x1230#23) ∧
  decode (.llhdr 0x00FFFFFF#32) = .ok (.llEnd 0#8 0x7FFFFF#23) ∧
  decode (.gp0 0x204080FF#32 [0x00000000#32, 0x00000004#32, 0x00040000#32]) =
    .ok (.triF ⟨⟨0xFF#8, 0x80#8, 0x40#8⟩, ⟨0#11, 0#11⟩, ⟨4#11, 0#11⟩, ⟨0#11, 4#11⟩⟩) ∧
  decode (.gp0 0x604080FF#32 [0x00010001#32, 0x00020003#32]) =
    .ok (.rectV ⟨⟨0xFF#8, 0x80#8, 0x40#8⟩, ⟨1#11, 1#11⟩, 3#16, 2#16⟩) ∧
  decode (.gp0 0xE1000125#32 []) = .ok (.drawmode ⟨5#4, 0#1, 2#2⟩ 1#2) ∧
  decode (.gp0 0xE5002805#32 []) = .ok (.offset 5#11 5#11) ∧
  decode (.gp0 0x40FFFFFF#32 []) = .ok (.line 0xFFFFFF#29)

/-- 43_gp0_ingress.md R217, R219, 10_state.md R34: a command word that is not refused makes a packet with exactly
`PacketLen` words, 1 to 12. A refused one decodes to its refusal whatever follows it: read from 30_encoding.md R121, log
entry 26 (DEDUCED). -/
def Obligations.APacketIsAcceptedExactlyAtItsLength : Prop :=
  ∀ (w0 : Word) (args : List Word),
    (∀ n, packetLen w0 = .ok n →
      1 ≤ n ∧ n ≤ 12 ∧ ((∃ i, decode (.gp0 w0 args) = .ok i) ↔ args.length + 1 = n)) ∧
    (∀ e, packetLen w0 = .error e → decode (.gp0 w0 args) = .ok (refusedCommand w0))

/-- 60_exceptions.md R410, 20_memory.md R75: through KUSEG, KSEG0 and KSEG1 the same register is reached, the same refusal
made; an unmapped offset differs only in the address its error carries (R392). The mask table is the spec's D35. -/
def Obligations.TheThreeMirrorsReachTheSameRegisters : Prop :=
  ∀ (seg : Segment) (m : Word) (op : BusOp) (width : Width) (v : Word),
    inDmaWindow m = true ∨ inGp0Word m = true →
    (decode (.reg ⟨op, seg.bits ||| m, width, v⟩) = decode (.reg ⟨op, m, width, v⟩) ∧
      ∀ sg off d, decode (.reg ⟨op, m, width, v⟩) ≠ .ok (.dmaUnmapped sg off op d)) ∨
    (∃ off d, decode (.reg ⟨op, seg.bits ||| m, width, v⟩) = .ok (.dmaUnmapped seg off op d) ∧
      decode (.reg ⟨op, m, width, v⟩) = .ok (.dmaUnmapped .kuseg off op d))

/-! ## The machine as a whole -/

/-- One step runs the instruction that the oldest event decodes to, on the state without that event; with no event nothing
changes (70_reset_and_hazards.md R440, R441; log entry 1). -/
def Obligations.AStepRunsTheDecodedInstruction : Prop :=
  ∀ (s : State) (rest : List HostEvent),
    (∀ a i, s.pending = .bus a :: rest → decode (.reg a) = .ok i → step s = exec i { s with pending := rest }) ∧
    (∀ w0 args i, s.pending = .execute w0 args :: rest → decode (.gp0 w0 args) = .ok i →
      step s = exec i { s with pending := rest }) ∧
    (s.pending = [] → step s = .next s)

/-- 60_exceptions.md R390, 70_reset_and_hazards.md R441: every instruction ends, in every state, with a result or an error
as its outcome, and the block goes on. That an error is a next state is the model's reading (log entry 3). -/
def Obligations.EveryInstructionEndsInANextState : Prop :=
  ∀ (i : Instr) (s : State), ∃ t, exec i s = .next t

/-- A step stops only for a host access to a unit outside the block (00_scope.md R6, 20_memory.md R76; log entry 12). -/
def Obligations.AStepStopsOnlyAtUnitsOutsideTheBlock : Prop :=
  ∀ s : State, (∃ t, step s = .next t) ∨
    ∃ a rest part, s.pending = .bus a :: rest ∧ step s = .fault (.outsideBlock part a) ∧ AtUnit part a

/-- Every step keeps the invariant: RAM and VRAM in canonical form, the queued words a proper part of one packet
(43_gp0_ingress.md R216), no list cursor left (10_state.md R35). -/
def Obligations.EveryStepKeepsTheInvariant : Prop :=
  ∀ s t : State, BlockInv s → step s = .next t → BlockInv t

/-- The state after reset meets the invariant. -/
def Obligations.ResetMeetsTheInvariant : Prop := BlockInv State.reset

/-- 10_state.md R23 for RAM; every other value is the spec's own choice D34, D13 (R39, R431; log entries 6 and 8). -/
def Obligations.ResetLeavesTheListedValues : Prop :=
  (∀ a, ramRead8 State.reset.ram a = 0) ∧ (∀ x y, State.reset.pixel x y = 0) ∧
  (∀ ch, State.reset.chan ch = ⟨0, 0, 0⟩ ∧ ctlActive (State.reset.chan ch).ctl = false) ∧
  State.reset.dmaControl = 0x07654321#32 ∧ State.reset.dmaInterrupt = 0 ∧
  masterFlag State.reset.dmaInterrupt = false ∧ State.reset.irqEvents = 0 ∧
  State.reset.drawArea = ⟨0, 0, 0, 0⟩ ∧ State.reset.drawOffset = ⟨0, 0⟩ ∧ State.reset.semiOp = 0 ∧
  State.reset.texPage = ⟨0, 0, 0⟩ ∧ State.reset.gp0Buf = [] ∧ State.reset.pending = []

/-- 40_dma_registers.md R163: whatever instruction changes `dma_interrupt`, one `dma_irq` is emitted exactly if
`master_flag` goes from 0 to 1. -/
def Obligations.OneInterruptEventPerRiseOfTheMasterFlag : Prop :=
  ∀ (i : Instr) (s t : State), exec i s = .next t → t.irqEvents = s.irqEvents + irqEdge s t

/-- 10_state.md R29: "Nothing but a host write of 1 clears it". -/
def Obligations.OnlyAHostWriteOfOneClearsAFlag : Prop :=
  ∀ (i : Instr) (s t : State) (ch : Chan), exec i s = .next t → intFlag s.dmaInterrupt ch = true →
    intFlag t.dmaInterrupt ch = false → ∃ v, i = .dmaWrInterrupt v ∧ v.getLsbD (24 + ch.num) = true

/-- 10_state.md R25 to R28, 40_dma_registers.md R153, 41_dma_block_transfer.md R186, 42_dma_linked_list.md R205: no
instruction changes `base_addr`, `block_control` or `dma_control` but the host's own write of it; of `channel_control` every
other instruction can only clear `enable` and `manual_trigger`. 10_state.md R30 to R33, 48_line_env.md R378 to R381: and no
instruction changes a part of the drawing environment but the environment command of that part, or what brings one to GP0: a
GP0 word that is one, or a transfer from a RAM that holds one (the command bytes are the spec's D8). -/
def Obligations.DmaRegistersChangeOnlyByTheirOwnWrites : Prop :=
  ∀ (i : Instr) (s t : State) (ch : Chan), exec i s = .next t →
    ((∀ v, i ≠ .dmaWrBase ch v) → (t.chan ch).base = (s.chan ch).base) ∧
    ((∀ v, i ≠ .dmaWrBlock ch v) → (t.chan ch).block = (s.chan ch).block) ∧
    ((∀ v, i ≠ .dmaWrControl v) → t.dmaControl = s.dmaControl) ∧
    ((∀ v, i ≠ .dmaWrChctl ch v) → ∀ b, (b ≠ 24 → b ≠ 28 → (t.chan ch).ctl.getLsbD b = (s.chan ch).ctl.getLsbD b) ∧
      ((t.chan ch).ctl.getLsbD b = true → (s.chan ch).ctl.getLsbD b = true)) ∧
    (t.drawArea ≠ s.drawArea → BringsCommand [0xE3#8, 0xE4#8] i s) ∧
    (t.drawOffset ≠ s.drawOffset → BringsCommand [0xE5#8] i s) ∧
    (t.semiOp ≠ s.semiOp ∨ t.texPage ≠ s.texPage → BringsCommand [0xE1#8] i s)

/-- 10_state.md R28: no rule reads `dma_control` but its own read, so what it holds changes nothing (the spec's D13). -/
def Obligations.DmaControlGatesNothing : Prop :=
  ∀ (i : Instr) (c : Word) (s : State), (∀ v, i ≠ .dmaWrControl v) → i ≠ .dmaRdControl →
    exec i { s with dmaControl := c } = mapNext (exec i s) (fun t => { t with dmaControl := c })

/-- 20_memory.md R60, 60_exceptions.md R410, 44_polygon.md R243(e), 47_rectangle.md R337(d): a GP0 command reaches VRAM and
the drawing environment only, never RAM, a DMA register, a device or the command buffer; a primitive reaches VRAM only. -/
def Obligations.Gp0CommandsReachOnlyTheGpu : Prop :=
  ∀ (i : Instr) (s t : State), isGp0 i = true → exec i s = .next t →
    GpuOnly s t ∧ t.gp0Buf = s.gp0Buf ∧ (isPrimitive i = true → DrawsOnly s t)

/-- 10_state.md R30, 60_exceptions.md R410: a GP0 command changes no pixel outside the drawing area, corners included (the
spec's D23). -/
def Obligations.DrawingStaysInTheDrawingArea : Prop :=
  ∀ (i : Instr) (s t : State) (x y : Nat), isGp0 i = true → exec i s = .next t → x < 1024 → y < 512 →
    inArea s.drawArea x y = false → t.pixel x y = s.pixel x y

/-! ## Bus accesses -/

/-- 60_exceptions.md R392: a refused access changes nothing, and its error carries the address as the host issued it, the
width and the operation. -/
def Obligations.ARefusedAccessChangesNothing : Prop :=
  ∀ (a : Access) (s t : State) (k : BusErrorKind) (addr : Word) (width : Width) (op : BusOp),
    runEvent (.bus a) s = .next t → t.result = .error (.bus k addr width op) →
    t = { s with result := .error (.bus k a.addr a.width a.op) }

/-- Which accesses are refused (20_memory.md R62, R76, R78, R79, 40_dma_registers.md R161, 60_exceptions.md R392, R398):
address row, then width, then alignment, then the unmapped offsets of the DMA window. Rows 2 and 5 are half-open (the spec's
D36, 90_conflicts.md C6; log entry 13, DEDUCED); the other choices are the spec's D18, D35, D41 and the log entries 7 (the
GP0 word), 12 (the I/O registers the block does not own) and 14 (the alignment of the units outside the block). -/
def Obligations.RefusedAccessesNameTheirKind : Prop :=
  ∀ (a : Access) (s : State),
    ((inDmaWindow (maskAddr a.addr) = true ∨ inGp0Word (maskAddr a.addr) = true) →
      (a.width ≠ .word → runEvent (.bus a) s = .next { s with result := .error (.bus .wrongWidth a.addr a.width a.op) }) ∧
      (a.width = .word → (maskAddr a.addr).toNat % 4 ≠ 0 →
        runEvent (.bus a) s = .next { s with result := .error (.bus .unaligned a.addr a.width a.op) })) ∧
    (inGp0Word (maskAddr a.addr) = true → a.width = .word → (maskAddr a.addr).toNat % 4 = 0 → a.op = .read →
      runEvent (.bus a) s = .next { s with result := .error (.bus .unmapped a.addr a.width a.op) }) ∧
    (inDmaWindow (maskAddr a.addr) = true → a.width = .word →
      (maskAddr a.addr).toNat % 16 = 12 ∨ (maskAddr a.addr).toNat % 128 = 0x78 →
      runEvent (.bus a) s = .next { s with result := .error (.bus .unmapped a.addr a.width a.op) }) ∧
    ((maskAddr a.addr).toNat < 0x200000 ∨ InOuterUnit (maskAddr a.addr).toNat →
      (maskAddr a.addr).toNat % Width.bytes a.width ≠ 0 →
      runEvent (.bus a) s = .next { s with result := .error (.bus .unaligned a.addr a.width a.op) }) ∧
    (0x1F801000 ≤ (maskAddr a.addr).toNat → (maskAddr a.addr).toNat < 0x1F802000 → inDmaWindow (maskAddr a.addr) = false →
      inGp0Word (maskAddr a.addr) = false →
      runEvent (.bus a) s = .next { s with result := .error (.bus .unmapped a.addr a.width a.op) }) ∧
    (¬ InSomeRow (maskAddr a.addr).toNat →
      runEvent (.bus a) s = .next { s with result := .error (.bus .unmapped a.addr a.width a.op) })

/-- 20_memory.md R61, R64: an aligned write of any width changes exactly its own bytes, low byte first, and an aligned read
of any width is made of the bytes last written. That the result of a short read is zero-extended is log entry 27. -/
def Obligations.HostRamAccessesAreLittleEndianBytes : Prop :=
  ∀ (a : Access) (s : State), (maskAddr a.addr).toNat < 0x200000 → (maskAddr a.addr).toNat % Width.bytes a.width = 0 →
    (a.op = .write → ∃ t, runEvent (.bus a) s = .next t ∧ t = { s with ram := t.ram, result := .done } ∧
      ∀ b, ramRead8 t.ram b =
        if (maskAddr a.addr).toNat ≤ b ∧ b < (maskAddr a.addr).toNat + Width.bytes a.width
        then a.data.extractLsb' (8 * (b - (maskAddr a.addr).toNat)) 8 else ramRead8 s.ram b) ∧
    (a.op = .read → ∃ v, runEvent (.bus a) s = .next { s with result := .value v } ∧
      ∀ k, k < 4 → v.extractLsb' (8 * k) 8 =
        if k < Width.bytes a.width then ramRead8 s.ram ((maskAddr a.addr).toNat + k) else 0)

/-- 20_memory.md R71: a VRAM write replaces exactly the pixel at its coordinates modulo 1024 and 512 (the wrap is the
spec's D27). -/
def Obligations.VramAccessesWrapAndChangeOnePixel : Prop :=
  ∀ (m : List (Nat × BitVec 16)) (x y x' y' : Nat) (v : Half),
    vramRead (vramWrite m x y v) x' y' =
      if x' % 1024 = x % 1024 ∧ y' % 512 = y % 512 then v else vramRead m x' y'

/-- 20_memory.md R73, 48_line_env.md R377, 70_reset_and_hazards.md R442: the front-end reads a pixel and changes nothing;
the Gpu collaborator sets the environment and nothing else. How the answer is carried is log entries 19 and 20. -/
def Obligations.TheOtherInputsReadAPixelAndSetTheEnvironment : Prop :=
  ∀ (x : BitVec 10) (y : BitVec 9) (area : DrawArea) (off : DrawOffset) (semi : BitVec 2) (page : TexPage) (s : State),
    runEvent (.readPixel x y) s = .next { s with result := .value (0#16 ++ s.pixel x.toNat y.toNat) } ∧
    runEvent (.setEnv area off semi page) s =
      .next { s with drawArea := area, drawOffset := off, semiOp := semi, texPage := page }

/-! ## DMA registers -/

/-- 40_dma_registers.md R151 to R153: a write that leaves its channel inactive stores its value, and nothing else. -/
def Obligations.ChannelRegisterWritesStoreTheirValue : Prop :=
  ∀ (ch : Chan) (v : Word) (s : State),
    (ctlActive (s.chan ch).ctl = false →
      exec (.dmaWrBase ch v) s =
        .next { s with chans := s.chans.set ch { s.chan ch with base := v.extractLsb' 0 24 }, result := .done } ∧
      exec (.dmaWrBlock ch v) s = .next { s with chans := s.chans.set ch { s.chan ch with block := v }, result := .done }) ∧
    (ctlActive v = false →
      exec (.dmaWrChctl ch v) s = .next { s with chans := s.chans.set ch { s.chan ch with ctl := v }, result := .done }) ∧
    (∀ (ch' : Chan) (r : ChanRegs), (s.chans.set ch r).get ch' = if ch' = ch then r else s.chan ch')

/-- 40_dma_registers.md R162, 41_dma_block_transfer.md R180, 10_state.md R40: a write that leaves its channel active (`enable`
set and, in Manual mode, `manual_trigger` too) runs, on the state with the value stored, the transfer that the control word
encodes; every active channel's control word encodes one. That all three registers trigger is the spec's D14. -/
def Obligations.AWriteThatLeavesAChannelActiveRunsItsTransfer : Prop :=
  ∀ (ch : Chan) (v : Word) (s : State),
    (∀ ctl : Word, ctlActive ctl = true ↔
      (ctl.getLsbD 24 = true ∧ (ctl.getLsbD 9 = false ∧ ctl.getLsbD 10 = false → ctl.getLsbD 28 = true))) ∧
    (∀ ctl, ctlActive ctl = true → ∃ i, decode (.chctl ch ctl) = .ok i) ∧
    (∀ i, ctlActive (s.chan ch).ctl = true → decode (.chctl ch (s.chan ch).ctl) = .ok i →
      exec (.dmaWrBase ch v) s = exec i (s.setBase ch (v.extractLsb' 0 24)) ∧
      exec (.dmaWrBlock ch v) s = exec i (s.setBlock ch v)) ∧
    (∀ i, ctlActive v = true → decode (.chctl ch v) = .ok i → exec (.dmaWrChctl ch v) s = exec i (s.setCtl ch v))

/-- 40_dma_registers.md R154: a write to 0x1F8010F0 stores all 32 bits; nothing else changes. -/
def Obligations.WritingDmaControlStoresTheWord : Prop :=
  ∀ (v : Word) (s : State), decode (.reg ⟨.write, 0x1F8010F0#32, .word, v⟩) = .ok (.dmaWrControl v) ∧
    exec (.dmaWrControl v) s = .next { s with dmaControl := v, result := .done }

/-- 40_dma_registers.md R155: a write to 0x1F8010F4 stores bits 23..0, clears the flags written 1 and keeps those written 0,
ignores bit 31, and emits one `dma_irq` if `master_flag` rose. -/
def Obligations.WritingTheInterruptRegisterClearsFlagsWrittenOne : Prop :=
  ∀ (v : Word) (s : State), decode (.reg ⟨.write, 0x1F8010F4#32, .word, v⟩) = .ok (.dmaWrInterrupt v) ∧ ∃ t, exec (.dmaWrInterrupt v) s = .next t ∧
    t = { s with dmaInterrupt := t.dmaInterrupt, irqEvents := t.irqEvents, result := .done } ∧
    (∀ b, b < 24 → t.dmaInterrupt.getLsbD b = v.getLsbD b) ∧
    (∀ b, 24 ≤ b → b < 31 → t.dmaInterrupt.getLsbD b = (s.dmaInterrupt.getLsbD b && !v.getLsbD b)) ∧
    t.irqEvents = s.irqEvents + irqEdge s t

/-- 10_state.md R46: `master_flag` is computed, a read returns it in bit 31, a write of bit 31 is ignored. -/
def Obligations.TheMasterFlagIsComputedAndNotStored : Prop :=
  ∀ (v : Word) (s : State),
    (masterFlag s.dmaInterrupt = true ↔ (s.dmaInterrupt.getLsbD 15 = true ∨ (s.dmaInterrupt.getLsbD 23 = true ∧
      ∃ k, k < 7 ∧ s.dmaInterrupt.getLsbD (24 + k) = true ∧ s.dmaInterrupt.getLsbD (16 + k) = true))) ∧
    (∃ w : Word, exec .dmaRdInterrupt s = .next { s with result := .value w } ∧
      w.getLsbD 31 = masterFlag s.dmaInterrupt ∧ ∀ b, b < 31 → w.getLsbD b = s.dmaInterrupt.getLsbD b) ∧
    exec (.dmaWrInterrupt (v ^^^ 0x80000000#32)) s = exec (.dmaWrInterrupt v) s

/-- 40_dma_registers.md R156 to R160, 20_memory.md R90: a read returns the register and changes nothing. -/
def Obligations.RegisterReadsReturnTheRegister : Prop :=
  ∀ (ch : Chan) (s : State),
    decode (.reg ⟨.read, 0x1F801080#32 + BitVec.ofNat 32 (16 * ch.num), .word, 0⟩) = .ok (.dmaRdBase ch) ∧
    decode (.reg ⟨.read, 0x1F801084#32 + BitVec.ofNat 32 (16 * ch.num), .word, 0⟩) = .ok (.dmaRdBlock ch) ∧
    decode (.reg ⟨.read, 0x1F801088#32 + BitVec.ofNat 32 (16 * ch.num), .word, 0⟩) = .ok (.dmaRdChctl ch) ∧
    decode (.reg ⟨.read, 0x1F8010F0#32, .word, 0⟩) = .ok .dmaRdControl ∧
    decode (.reg ⟨.read, 0x1F8010F4#32, .word, 0⟩) = .ok .dmaRdInterrupt ∧
    exec (.dmaRdBase ch) s = .next { s with result := .value (0#8 ++ (s.chan ch).base) } ∧
    exec (.dmaRdBlock ch) s = .next { s with result := .value (s.chan ch).block } ∧
    exec (.dmaRdChctl ch) s = .next { s with result := .value (s.chan ch).ctl } ∧
    exec .dmaRdControl s = .next { s with result := .value s.dmaControl } ∧
    exec .dmaRdInterrupt s =
      .next { s with result := .value (BitVec.ofBool (masterFlag s.dmaInterrupt) ++ s.dmaInterrupt) }

/-- 40_dma_registers.md R161, 60_exceptions.md R392: an access that decodes to an unmapped offset ends in `BusError` with
the address as issued, and changes nothing (the spec's D18). -/
def Obligations.UnmappedOffsetsEndInABusError : Prop :=
  (∀ (seg : Segment) (off : UnmappedOffset) (op : BusOp) (v : Word) (s : State),
    exec (.dmaUnmapped seg off op v) s =
      .next { s with result := .error (.bus .unmapped (seg.bits ||| off.addr) .word op) }) ∧
  (∀ (a : Access) (seg : Segment) (off : UnmappedOffset) (op : BusOp) (v : Word),
    decode (.reg a) = .ok (.dmaUnmapped seg off op v) → a.addr = seg.bits ||| off.addr ∧ a.width = .word ∧ a.op = op)

/-! ## Transfers -/

/-- 41_dma_block_transfer.md R186: `transfer_finished` clears `enable` and `manual_trigger`, sets the channel's flag if its
enable bit is set, and emits `dma_irq` if `master_flag` rose. Nothing else changes. -/
def Obligations.AFinishedTransferClearsStartAndSetsItsFlag : Prop :=
  ∀ (ch : Chan) (s t : State), t = transferFinished ch s →
    t = { s with chans := t.chans, dmaInterrupt := t.dmaInterrupt, irqEvents := t.irqEvents, result := .done } ∧
    (∀ ch', ch' ≠ ch → t.chan ch' = s.chan ch') ∧
    (t.chan ch).base = (s.chan ch).base ∧ (t.chan ch).block = (s.chan ch).block ∧
    (∀ b, (t.chan ch).ctl.getLsbD b = ((s.chan ch).ctl.getLsbD b && b != 24 && b != 28)) ∧
    (∀ b, t.dmaInterrupt.getLsbD b =
      (s.dmaInterrupt.getLsbD b || (b == 24 + ch.num && intEnable s.dmaInterrupt ch))) ∧
    t.irqEvents = s.irqEvents + irqEdge s t ∧ ctlActive (t.chan ch).ctl = false

/-- 41_dma_block_transfer.md R188, R182: the words of the successive cursors, as many as `block_control` counts, go to the
port in order, then the transfer finishes; on the Gpu channel each is pushed to GP0 in turn, and a word that raises an error
ends it (R192, the spec's D43). RAM is not changed. That a device's words are a record in `devOut` is log entry 10, a DESIGN
CHOICE after R184 (the spec's D19); the exact count is the spec's D11. -/
def Obligations.FromRamSendsTheWordsOfTheCursorsInOrder : Prop :=
  ∀ (ch : Chan) (ctl : Word) (s : State) (n : Nat) (ws : List Word), (Instr.xferBlockFromram ch ctl).wellFormed = true →
    n = wordCount ctl (s.chan ch).block → ws = cursorWords s.ram (s.chan ch).base (stepOf ctl) n →
    Counts ctl (s.chan ch).block n ∧
    decode (.chctl ch ctl) = .ok (.xferBlockFromram ch ctl) ∧
    (∀ t, exec (.xferBlockFromram ch ctl) s = .next t → t.ram = s.ram) ∧
    (ch ≠ .gpu → exec (.xferBlockFromram ch ctl) s =
      .next (transferFinished ch { s with devOut := s.devOut ++ ws.map fun w => (ch, w) })) ∧
    (ch = .gpu → ∃ u, pushWords ws s = .next u ∧
      exec (.xferBlockFromram ch ctl) s = .next (if u.result.isError then u else transferFinished ch u))

/-- 41_dma_block_transfer.md R189, R182: as many words as `block_control` counts are taken from the port in order and stored at the successive
cursors, a later word over an earlier one at the same address; then the transfer finishes. No other byte changes. The words
are the ones laid ready, then free values (R184, log entry 9); the exact count is the spec's D11. -/
def Obligations.ToRamStoresTheReceivedWordsAtTheCursors : Prop :=
  ∀ (ch : Chan) (ctl : Word) (s : State) (n : Nat), (Instr.xferBlockToram ch ctl).wellFormed = true →
    n = wordCount ctl (s.chan ch).block →
    Counts ctl (s.chan ch).block n ∧ ∃ ram, exec (.xferBlockToram ch ctl) s = .next (transferFinished ch { s with
        ram := ram
        devIn := s.devIn.set ch ((s.devIn.get ch).drop n)
        devDraws := s.devDraws + (n - (s.devIn.get ch).length) }) ∧
      (∀ k, LastAt (s.chan ch).base (stepOf ctl) n k →
        ramRead32 ram (cursor (s.chan ch).base (stepOf ctl) k).toNat = received s ch k) ∧
      (∀ a, (∀ k, k < n → ¬ inWord (cursor (s.chan ch).base (stepOf ctl) k) a) → ramRead8 ram a = ramRead8 s.ram a)

/-- 41_dma_block_transfer.md R190, R187, R182: the Otc channel writes `addr - 4` at each cursor and `0x00FFFFFF` at the last,
as many words as `block_control` counts, whatever its direction bit holds; then the transfer finishes. No other byte changes
(the spec's D15, D11). -/
def Obligations.OtcWritesTheChainOfLinks : Prop :=
  ∀ (ctl : Word) (s : State) (n : Nat), (Instr.xferBlockOtc ctl).wellFormed = true →
    n = wordCount ctl (s.chan .otc).block →
    Counts ctl (s.chan .otc).block n ∧ ∃ ram, exec (.xferBlockOtc ctl) s = .next (transferFinished .otc { s with ram := ram }) ∧
      (∀ k, LastAt (s.chan .otc).base (stepOf ctl) n k →
        ramRead32 ram (cursor (s.chan .otc).base (stepOf ctl) k).toNat =
          if k + 1 = n then 0x00FFFFFF#32 else cursor (s.chan .otc).base (stepOf ctl) k - 4#32) ∧
      (∀ a, (∀ k, k < n → ¬ inWord (cursor (s.chan .otc).base (stepOf ctl) k) a) → ramRead8 ram a = ramRead8 s.ram a)

/-- 41_dma_block_transfer.md R180, 60_exceptions.md R393: an invalid mode raises `InvalidSyncMode` and changes nothing; a
control write that selects it is stored, and the channel stays active (the spec's D44). -/
def Obligations.AnInvalidModeChangesNothingAndStaysActive : Prop :=
  ∀ (ch : Chan) (ctl : Word) (s : State),
    exec (.xferInvalid ch ctl) s = .next { s with result := .error (.invalidSyncMode ch) } ∧
    ((Instr.xferInvalid ch ctl).wellFormed = true →
      exec (.dmaWrChctl ch ctl) s =
        .next { s with chans := s.chans.set ch { s.chan ch with ctl := ctl }, result := .error (.invalidSyncMode ch) } ∧
      ctlActive ctl = true)

/-- 41_dma_block_transfer.md R192: a transfer that ends in a `GpuDecodeError` has changed only what GP0 words reach: the
channel keeps `enable`, no flag is set, RAM is as it was (the spec's D43). -/
def Obligations.ADecodeErrorInATransferLeavesTheChannelArmed : Prop :=
  ∀ (ctl : Word) (s t : State) (e : BlockError), BlockInv s → t.result = .error e → e.isGpuDecode = true →
    (exec (.xferBlockFromram .gpu ctl) s = .next t ∨ exec (.xferList ctl) s = .next t) →
    GpuOnly s t ∧ t.streamFault ≠ none

/-- 42_dma_linked_list.md R208, R209, R203: the header word gives `size` and `next`, its bit 23 the row; a header sends its
`size` payload words, then `LL.NEXT` moves the cursor to `next & 0x1FFFFC` and `LL.END` finishes the transfer. An error of a
payload word ends either (41_dma_block_transfer.md R192, the spec's D43). That the two rows act on a cursor held in the field
`listAddr` is log entry 21, a DESIGN CHOICE. -/
def Obligations.AListHeaderSendsItsPayloadThenContinuesOrEnds : Prop :=
  ∀ (size : Byte) (next : BitVec 23) (s : State) (ws : List Word),
    decode (.llhdr (size ++ 0#1 ++ next)) = .ok (.llNext size next) ∧
    decode (.llhdr (size ++ 1#1 ++ next)) = .ok (.llEnd size next) ∧
    (ws = (List.range size.toNat).map (fun k =>
      ramRead32 s.ram (dmaAddr (s.listAddr + BitVec.ofNat 32 (4 * (k + 1)))).toNat) →
    ∃ u, pushWords ws s = .next u ∧
      exec (.llNext size next) s =
        .next (if u.result.isError then u else { u with listAddr := (0#9 ++ next) &&& 0x1FFFFC#32 }) ∧
      exec (.llEnd size next) s = .next (if u.result.isError then u else transferFinished .gpu u))

/-- 42_dma_linked_list.md R200 to R206: a list of at most `LL_CAP` packets pushes all its payloads in order and finishes (the
spec's D16); a payload word that raises an error ends the walk there (R192, the spec's D43). The cap is log entry 5; that
`listAddr` is 0 after the walk is log entry 21. -/
def Obligations.AListWalkPushesEveryPayloadAndFinishes : Prop :=
  ∀ (ctl : Word) (s : State) (as : List Word), IsList s.ram as →
    as.head? = some (startAddr (s.chan .gpu).base) → as.length ≤ Config.llCap →
    ∃ u, pushWords (as.flatMap (payloadWords s.ram)) s = .next u ∧
      exec (.xferList ctl) s = .next { (if u.result.isError then u else transferFinished .gpu u) with listAddr := 0 }

/-- 42_dma_linked_list.md R205, 60_exceptions.md R394: a list that has not ended after `LL_CAP` packets has pushed all their
payloads; then `enable` alone is cleared, `flag_2` is set whatever `enable_2` holds, and `DmaRunaway` is raised (the spec's
D17, log entry 5). Where a payload word raises an error before the cap, the walk ends at that word with that error and nothing
of the abort happens (41_dma_block_transfer.md R192, the spec's D43). That `listAddr` is 0 after the walk is log entry 21. -/
def Obligations.ARunawayListIsAbortedAtTheCap : Prop :=
  ∀ (ctl : Word) (s : State) (as : List Word), IsEndless s.ram as →
    as.head? = some (startAddr (s.chan .gpu).base) → as.length = Config.llCap →
    ∃ u, pushWords (as.flatMap (payloadWords s.ram)) s = .next u ∧
    (u.result.isError = true → exec (.xferList ctl) s = .next { u with listAddr := 0 }) ∧
    (u.result.isError = false → ∃ t, exec (.xferList ctl) s = .next t ∧ t.result = .error (.dmaRunaway .gpu) ∧
      t = { u with chans := t.chans, dmaInterrupt := t.dmaInterrupt, irqEvents := t.irqEvents, listAddr := 0,
                   result := t.result } ∧
      (∀ ch, ch ≠ .gpu → t.chan ch = s.chan ch) ∧
      (t.chan .gpu).base = (s.chan .gpu).base ∧ (t.chan .gpu).block = (s.chan .gpu).block ∧
      (∀ b, (t.chan .gpu).ctl.getLsbD b = ((s.chan .gpu).ctl.getLsbD b && b != 24)) ∧
      (∀ b, t.dmaInterrupt.getLsbD b = (s.dmaInterrupt.getLsbD b || b == 26)) ∧
      t.irqEvents = s.irqEvents + irqEdge s t)

/-- 41_dma_block_transfer.md R190, 42_dma_linked_list.md R207: the chain that a backward Otc transfer builds, where it does
not run past address 0, is a list that a walk from the same start follows to its end and that pushes nothing (the spec's D15
for the chain, D16 for the end of the walk; that `listAddr` is 0 after it is log entry 21). -/
def Obligations.AnOrderingTableIsAListThatDrawsNothing : Prop :=
  ∀ (ctl lctl : Word) (s : State) (n : Nat), (Instr.xferBlockOtc ctl).wellFormed = true → ctl.getLsbD 1 = true →
    n = wordCount ctl (s.chan .otc).block → 1 ≤ n → 4 * (n - 1) ≤ (startAddr (s.chan .otc).base).toNat →
    startAddr (s.chan .gpu).base = startAddr (s.chan .otc).base →
    ∃ t, exec (.xferBlockOtc ctl) s = .next t ∧
      exec (.xferList lctl) t = .next { transferFinished .gpu t with listAddr := 0 }

/-! ## The GP0 ingress -/

/-- 43_gp0_ingress.md R216: a word is queued until the packet is complete; the completing word empties the buffer and runs
the command; a first word that is refused is not queued. -/
def Obligations.AGp0WordIsQueuedUntilItsPacketIsComplete : Prop :=
  ∀ (w w0 : Word) (rest : List Word) (s : State), bufferFramed s.gp0Buf = true → s.gp0Buf ++ [w] = w0 :: rest →
    (∀ n, packetLen w0 = .ok n → rest.length + 1 < n →
      exec (.gp0Wr w) s = .next { s with gp0Buf := w0 :: rest, result := .done }) ∧
    (∀ n, packetLen w0 = .ok n → rest.length + 1 = n → ∃ i, decode (.gp0 w0 rest) = .ok i ∧ isGp0 i = true ∧
      exec (.gp0Wr w) s = exec i { s with gp0Buf := [] }) ∧
    (∀ n, packetLen w0 = .ok n → rest.length + 1 ≤ n) ∧
    (∀ e, packetLen w0 = .error e → s.gp0Buf = [] ∧ exec (.gp0Wr w) s = exec (refusedCommand w) s ∧
      ∀ t, exec (.gp0Wr w) s = .next t → t.gp0Buf = [])

/-- 43_gp0_ingress.md R215, R216, R220: pushing the words of a command one after another, from an empty buffer, is that
command. -/
def Obligations.WritingAPacketWordByWordIsItsCommand : Prop :=
  ∀ (i : Instr) (w0 : Word) (args : List Word) (s : State), i.wellFormed = true → encode i = .gp0 w0 args →
    s.gp0Buf = [] → writeGp0 (w0 :: args) s = exec i s

/-- 43_gp0_ingress.md R219: at the Rasterizer's own entry a word vector of the wrong length raises `Length` and draws
nothing. That the entry is exposed is log entry 18, that the vector has a first word log entry 31, and that no fault mark is
left log entry 4. -/
def Obligations.AWordVectorOfTheWrongLengthIsRefused : Prop :=
  ∀ (w0 : Word) (args : List Word) (n : Nat) (s : State), packetLen w0 = .ok n → args.length + 1 ≠ n →
    runEvent (.execute w0 args) s = .next { s with result := .error (.length w0) }

/-- 48_line_env.md R375, R376, 60_exceptions.md R395: a refused command word raises its error, draws nothing and is not
queued (the spec's D9); the fault mark is the model's (log entry 3). -/
def Obligations.RefusedCommandWordsRaiseTheirError : Prop :=
  ∀ (r : BitVec 29) (op : BitVec 5) (arg : BitVec 24) (s : State) (i : Instr) (e : BlockError),
    (i, e) ∈ [(Instr.line r, BlockError.unimplemented (2#3 ++ r)), (.gp0Unknown00 r, .unknownCommand (0#3 ++ r)),
      (.gp0Unknown80 r, .unknownCommand (4#3 ++ r)), (.gp0UnknownA0 r, .unknownCommand (5#3 ++ r)),
      (.gp0UnknownC0 r, .unknownCommand (6#3 ++ r)), (.gp0UnknownE0 op arg, .unknownCommand (7#3 ++ op ++ arg))] →
    exec i s = .next { s with result := .error e, streamFault := some (s.streamFault.getD e) }

/-- 48_line_env.md R378 to R381: what each environment command sets, and that it sets nothing else (the spec's D8). -/
def Obligations.EnvironmentCommandsSetTheEnvironment : Prop :=
  ∀ (page : TexPage) (semi : BitVec 2) (x : BitVec 10) (y : BitVec 9) (dx dy : BitVec 11) (s : State),
    exec (.drawmode page semi) s = .next { s with texPage := page, semiOp := semi, result := .done } ∧
    exec (.areaTl x y) s =
      .next { s with drawArea := ⟨x, y, s.drawArea.maxX, s.drawArea.maxY⟩, result := .done } ∧
    exec (.areaBr x y) s =
      .next { s with drawArea := ⟨s.drawArea.minX, s.drawArea.minY, x, y⟩, result := .done } ∧
    exec (.offset dx dy) s = .next { s with drawOffset := ⟨dx, dy⟩, result := .done }

/-! ## Polygons -/

/-- 44_polygon.md R244 to R247, 45_triangle_raster.md R282 to R288: a flat triangle paints exactly the pixels it covers
inside the drawing area with the quantised command colour, blended if semi-transparent. -/
def Obligations.FlatTrianglesPaintTheirPixels : Prop :=
  ∀ (p : TriFlat) (s : State) (i : Instr) (raw semi : Bool),
    (i, raw, semi) ∈ [(Instr.triF p, false, false), (.triFR p, true, false), (.triFS p, false, true),
      (.triFSR p, true, true)] →
    Draws i s (fun x y => trianglePixel s.drawArea (vert s.drawOffset p.v0 p.c noUv) (vert s.drawOffset p.v1 p.c noUv)
      (vert s.drawOffset p.v2 p.c noUv)
      (fun _ => written (shadedCtx raw semi p.c s.semiOp) (quantisedPixel p.c.r.toNat p.c.g.toNat p.c.b.toNat)) x y)

/-- 44_polygon.md R260 to R263, 46_pixel_pipeline.md R301: a Gouraud triangle paints each covered pixel with the quantised
average of its vertex colours, weighed by the pixel's edge values. -/
def Obligations.GouraudTrianglesPaintTheirPixels : Prop :=
  ∀ (p : TriGouraud) (s : State) (i : Instr) (raw semi : Bool),
    (i, raw, semi) ∈ [(Instr.triG p, false, false), (.triGR p, true, false), (.triGS p, false, true),
      (.triGSR p, true, true)] →
    Draws i s (fun x y => trianglePixel s.drawArea (vert s.drawOffset p.v0 p.c noUv) (vert s.drawOffset p.v1 p.c1 noUv)
      (vert s.drawOffset p.v2 p.c2 noUv) (fun t => written (shadedCtx raw semi p.c s.semiOp) (t.shade x y)) x y)

/-- 44_polygon.md R248 to R251, 46_pixel_pipeline.md R303 to R314: a flat textured triangle changes only pixels it covers
inside the drawing area; where its texture and CLUT lie outside the drawing area, or that area is one pixel, each gets its
texel. Other footprints are reached through `PixelsAreDrawnRowsAscendingThenColumns`, which cuts the area into pixels. What
`sample` reads is said in `PixelArithmeticActsLaneByLane`. Transparency, modulation, blending and the nibble and byte order are
the spec's D28, D29, D30, D32 (log entry 15). -/
def Obligations.FlatTexturedTrianglesPaintTheirTexels : Prop :=
  ∀ (p : TriFlatTex) (s : State) (i : Instr) (raw semi : Bool) (rt : RenderType) (ctx : Ctx) (v0 v1 v2 : Vert),
    (i, raw, semi) ∈ [(Instr.triFT p, false, false), (.triFTR p, true, false), (.triFTS p, false, true),
      (.triFTSR p, true, true)] →
    DepthGives p.page.depth rt → ctx = ⟨rt, raw, semi, p.pal, p.page, p.c, s.semiOp⟩ →
    v0 = vert s.drawOffset p.v0 p.c p.t0 → v1 = vert s.drawOffset p.v1 p.c p.t1 → v2 = vert s.drawOffset p.v2 p.c p.t2 →
    DrawsTextured i s ctx (fun x y => inArea s.drawArea x y && covers v0 v1 v2 x y)
      (fun x y => trianglePixel s.drawArea v0 v1 v2 (texelPaint s.vram ctx x y) x y)

/-- 44_polygon.md R264 to R267, R242, 46_pixel_pipeline.md R303 to R314: a Gouraud textured triangle; its colours after the
first are taken and not used for drawing (the spec's D29). The texels are said where the texture and CLUT lie outside the
drawing area or that area is one pixel; other footprints are reached through `PixelsAreDrawnRowsAscendingThenColumns`.
Transparency, blending and the nibble and byte order are the spec's D28, D30, D32 (log entry 15). -/
def Obligations.GouraudTexturedTrianglesPaintTheirTexels : Prop :=
  ∀ (p : TriGouraudTex) (s : State) (i : Instr) (raw semi : Bool) (rt : RenderType) (ctx : Ctx) (v0 v1 v2 : Vert),
    (i, raw, semi) ∈ [(Instr.triGT p, false, false), (.triGTR p, true, false), (.triGTS p, false, true),
      (.triGTSR p, true, true)] →
    DepthGives p.page.depth rt → ctx = ⟨rt, raw, semi, p.pal, p.page, p.c, s.semiOp⟩ →
    v0 = vert s.drawOffset p.v0 p.c p.t0 → v1 = vert s.drawOffset p.v1 p.c p.t1 → v2 = vert s.drawOffset p.v2 p.c p.t2 →
    DrawsTextured i s ctx (fun x y => inArea s.drawArea x y && covers v0 v1 v2 x y)
      (fun x y => trianglePixel s.drawArea v0 v1 v2 (texelPaint s.vram ctx x y) x y)

/-- 44_polygon.md R241, R252 to R255, R268 to R271: an untextured quad is the triangle of its vertices 0, 1, 2 and then the
triangle of its vertices 1, 2, 3, each with its own colours (the spec's D38). -/
def Obligations.UntexturedQuadsAreTwoTriangles : Prop :=
  (∀ (p : QuadFlat) (s : State) (i a b : Instr),
    (i, a, b) ∈ [(Instr.quadF p, Instr.triF ⟨p.c, p.v0, p.v1, p.v2⟩, Instr.triF ⟨p.c, p.v1, p.v2, p.v3⟩),
      (.quadFR p, .triFR ⟨p.c, p.v0, p.v1, p.v2⟩, .triFR ⟨p.c, p.v1, p.v2, p.v3⟩),
      (.quadFS p, .triFS ⟨p.c, p.v0, p.v1, p.v2⟩, .triFS ⟨p.c, p.v1, p.v2, p.v3⟩),
      (.quadFSR p, .triFSR ⟨p.c, p.v0, p.v1, p.v2⟩, .triFSR ⟨p.c, p.v1, p.v2, p.v3⟩)] →
    ∃ t u, exec a s = .next t ∧ exec b t = .next u ∧ exec i s = .next u ∧ DrawsOnly s u ∧ u.result = .done) ∧
  (∀ (p : QuadGouraud) (s : State) (i a b : Instr),
    (i, a, b) ∈ [
      (Instr.quadG p, Instr.triG ⟨p.c, p.v0, p.c1, p.v1, p.c2, p.v2⟩, Instr.triG ⟨p.c1, p.v1, p.c2, p.v2, p.c3, p.v3⟩),
      (.quadGR p, .triGR ⟨p.c, p.v0, p.c1, p.v1, p.c2, p.v2⟩, .triGR ⟨p.c1, p.v1, p.c2, p.v2, p.c3, p.v3⟩),
      (.quadGS p, .triGS ⟨p.c, p.v0, p.c1, p.v1, p.c2, p.v2⟩, .triGS ⟨p.c1, p.v1, p.c2, p.v2, p.c3, p.v3⟩),
      (.quadGSR p, .triGSR ⟨p.c, p.v0, p.c1, p.v1, p.c2, p.v2⟩, .triGSR ⟨p.c1, p.v1, p.c2, p.v2, p.c3, p.v3⟩)] →
    ∃ t u, exec a s = .next t ∧ exec b t = .next u ∧ exec i s = .next u ∧ DrawsOnly s u ∧ u.result = .done)

/-- 44_polygon.md R241, R256 to R259, R272 to R275: a textured quad is two textured triangles, each with its own texture
coordinates, the same palette, page and modulation colour (the spec's D38). -/
def Obligations.TexturedQuadsAreTwoTriangles : Prop :=
  (∀ (p : QuadFlatTex) (s : State) (i a b : Instr) (first second : TriFlatTex), p.page.depth ≠ 3#2 →
    first = ⟨p.c, p.v0, p.t0, p.pal, p.v1, p.t1, p.page, p.v2, p.t2⟩ →
    second = ⟨p.c, p.v1, p.t1, p.pal, p.v2, p.t2, p.page, p.v3, p.t3⟩ →
    (i, a, b) ∈ [(Instr.quadFT p, Instr.triFT first, Instr.triFT second), (.quadFTR p, .triFTR first, .triFTR second),
      (.quadFTS p, .triFTS first, .triFTS second), (.quadFTSR p, .triFTSR first, .triFTSR second)] →
    ∃ t u, exec a s = .next t ∧ exec b t = .next u ∧ exec i s = .next u ∧ DrawsOnly s u ∧ u.result = .done) ∧
  (∀ (p : QuadGouraudTex) (s : State) (i a b : Instr) (first second : TriGouraudTex), p.page.depth ≠ 3#2 →
    first = ⟨p.c, p.v0, p.t0, p.pal, p.c1, p.v1, p.t1, p.page, p.c2, p.v2, p.t2⟩ →
    second = ⟨p.c, p.v1, p.t1, p.pal, p.c2, p.v2, p.t2, p.page, p.c3, p.v3, p.t3⟩ →
    (i, a, b) ∈ [(Instr.quadGT p, Instr.triGT first, Instr.triGT second), (.quadGTR p, .triGTR first, .triGTR second),
      (.quadGTS p, .triGTS first, .triGTS second), (.quadGTSR p, .triGTSR first, .triGTSR second)] →
    ∃ t u, exec a s = .next t ∧ exec b t = .next u ∧ exec i s = .next u ∧ DrawsOnly s u ∧ u.result = .done)

/-! ## Rectangles -/

/-- 47_rectangle.md R338 to R341, R332, R334: an untextured rectangle of variable size paints exactly its pixels inside the
drawing area; its size is not wrapped (the spec's D33). -/
def Obligations.RectanglesOfVariableSizePaintTheirPixels : Prop :=
  ∀ (p : RectVar) (s : State) (i : Instr) (raw semi : Bool),
    (i, raw, semi) ∈ [(Instr.rectV p, false, false), (.rectVR p, true, false), (.rectVS p, false, true),
      (.rectVSR p, true, true)] →
    Draws i s (fun x y back =>
      if inRect s.drawArea (place p.v.x s.drawOffset.dx) (place p.v.y s.drawOffset.dy) p.w.toNat p.h.toNat x y
      then written (shadedCtx raw semi p.c s.semiOp) (quantisedPixel p.c.r.toNat p.c.g.toNat p.c.b.toNat) back else back)

/-- 47_rectangle.md R346 to R349, R354 to R357, R362 to R365: untextured rectangles of the fixed sizes 1, 8 and 16 (the
sizes are general knowledge, the spec's D6). -/
def Obligations.RectanglesOfFixedSizePaintTheirPixels : Prop :=
  ∀ (p : RectFix) (s : State) (i : Instr) (n : Nat) (raw semi : Bool),
    (i, n, raw, semi) ∈ [(Instr.rect1 p, 1, false, false), (.rect1R p, 1, true, false), (.rect1S p, 1, false, true),
      (.rect1SR p, 1, true, true), (.rect8 p, 8, false, false), (.rect8R p, 8, true, false), (.rect8S p, 8, false, true),
      (.rect8SR p, 8, true, true), (.rect16 p, 16, false, false), (.rect16R p, 16, true, false),
      (.rect16S p, 16, false, true), (.rect16SR p, 16, true, true)] →
    Draws i s (fun x y back =>
      if inRect s.drawArea (place p.v.x s.drawOffset.dx) (place p.v.y s.drawOffset.dy) n n x y
      then written (shadedCtx raw semi p.c s.semiOp) (quantisedPixel p.c.r.toNat p.c.g.toNat p.c.b.toNat) back else back)

/-- 47_rectangle.md R342 to R345, R333, R335: a textured rectangle of variable size, its texels counted from its own corner
modulo 256, its page the Gpu's (the spec's D7, D33). It changes only its own pixels inside the drawing area; the texels are
said where the texture and CLUT lie outside that area or it is one pixel, and other footprints are reached through
`PixelsAreDrawnRowsAscendingThenColumns`. The pixel pipeline's choices are the spec's D28, D29, D30, D32 (log entry 15). -/
def Obligations.TexturedRectanglesOfVariableSizePaintTheirTexels : Prop :=
  ∀ (p : RectVarTex) (s : State) (i : Instr) (raw semi : Bool) (rt : RenderType) (ctx : Ctx) (px py : Int),
    (i, raw, semi) ∈ [(Instr.rectVT p, false, false), (.rectVTR p, true, false), (.rectVTS p, false, true),
      (.rectVTSR p, true, true)] →
    DepthGives s.texPage.depth rt → ctx = ⟨rt, raw, semi, p.pal, s.texPage, p.c, s.semiOp⟩ →
    px = place p.v.x s.drawOffset.dx → py = place p.v.y s.drawOffset.dy →
    DrawsTextured i s ctx (fun x y => inRect s.drawArea px py p.w.toNat p.h.toNat x y)
      (fun x y back => if inRect s.drawArea px py p.w.toNat p.h.toNat x y
        then textured s.vram ctx (((p.t.u.toNat : Int) + (x - px)) % 256).toNat
          (((p.t.v.toNat : Int) + (y - py)) % 256).toNat back
        else back)

/-- 47_rectangle.md R350 to R353, R358 to R361, R366 to R369: textured rectangles of the fixed sizes (the spec's D6, D7, D33).
Each changes only its own pixels inside the drawing area; the texels are said where the texture and CLUT lie outside that area
or it is one pixel, and other footprints are reached through `PixelsAreDrawnRowsAscendingThenColumns`. The pixel pipeline's
choices are the spec's D28, D29, D30, D32 (log entry 15). -/
def Obligations.TexturedRectanglesOfFixedSizePaintTheirTexels : Prop :=
  ∀ (p : RectFixTex) (s : State) (i : Instr) (n : Nat) (raw semi : Bool) (rt : RenderType) (ctx : Ctx) (px py : Int),
    (i, n, raw, semi) ∈ [(Instr.rect1T p, 1, false, false), (.rect1TR p, 1, true, false), (.rect1TS p, 1, false, true),
      (.rect1TSR p, 1, true, true), (.rect8T p, 8, false, false), (.rect8TR p, 8, true, false),
      (.rect8TS p, 8, false, true), (.rect8TSR p, 8, true, true), (.rect16T p, 16, false, false),
      (.rect16TR p, 16, true, false), (.rect16TS p, 16, false, true), (.rect16TSR p, 16, true, true)] →
    DepthGives s.texPage.depth rt → ctx = ⟨rt, raw, semi, p.pal, s.texPage, p.c, s.semiOp⟩ →
    px = place p.v.x s.drawOffset.dx → py = place p.v.y s.drawOffset.dy →
    DrawsTextured i s ctx (fun x y => inRect s.drawArea px py n n x y)
      (fun x y back => if inRect s.drawArea px py n n x y
        then textured s.vram ctx (((p.t.u.toNat : Int) + (x - px)) % 256).toNat
          (((p.t.v.toNat : Int) + (y - py)) % 256).toNat back
        else back)

/-! ## Drawing in common -/

/-- 44_polygon.md R240, 47_rectangle.md R335, 60_exceptions.md R395: a textured primitive whose page has the reserved depth
raises `ReservedDepth` with its command word and changes nothing else (the spec's D39, D37). That `streamFault` stays as it was
is log entry 4 (DEDUCED). -/
def Obligations.TheReservedDepthIsRefusedBeforeDrawing : Prop :=
  (∀ (p : TriFlatTex) (s : State) (i : Instr) (op : BitVec 8), p.page.depth = 3#2 →
    (i, op) ∈ [(Instr.triFT p, 0x24#8), (.triFTR p, 0x25#8), (.triFTS p, 0x26#8), (.triFTSR p, 0x27#8)] →
    exec i s = .next { s with result := .error (.reservedDepth (p.c.toWord op)) }) ∧
  (∀ (p : QuadFlatTex) (s : State) (i : Instr) (op : BitVec 8), p.page.depth = 3#2 →
    (i, op) ∈ [(Instr.quadFT p, 0x2C#8), (.quadFTR p, 0x2D#8), (.quadFTS p, 0x2E#8), (.quadFTSR p, 0x2F#8)] →
    exec i s = .next { s with result := .error (.reservedDepth (p.c.toWord op)) }) ∧
  (∀ (p : TriGouraudTex) (s : State) (i : Instr) (op : BitVec 8), p.page.depth = 3#2 →
    (i, op) ∈ [(Instr.triGT p, 0x34#8), (.triGTR p, 0x35#8), (.triGTS p, 0x36#8), (.triGTSR p, 0x37#8)] →
    exec i s = .next { s with result := .error (.reservedDepth (p.c.toWord op)) }) ∧
  (∀ (p : QuadGouraudTex) (s : State) (i : Instr) (op : BitVec 8), p.page.depth = 3#2 →
    (i, op) ∈ [(Instr.quadGT p, 0x3C#8), (.quadGTR p, 0x3D#8), (.quadGTS p, 0x3E#8), (.quadGTSR p, 0x3F#8)] →
    exec i s = .next { s with result := .error (.reservedDepth (p.c.toWord op)) }) ∧
  (∀ (p : RectVarTex) (s : State) (i : Instr) (op : BitVec 8), s.texPage.depth = 3#2 →
    (i, op) ∈ [(Instr.rectVT p, 0x64#8), (.rectVTR p, 0x65#8), (.rectVTS p, 0x66#8), (.rectVTSR p, 0x67#8)] →
    exec i s = .next { s with result := .error (.reservedDepth (p.c.toWord op)) }) ∧
  (∀ (p : RectFixTex) (s : State) (i : Instr) (op : BitVec 8), s.texPage.depth = 3#2 →
    (i, op) ∈ [(Instr.rect1T p, 0x6C#8), (.rect1TR p, 0x6D#8), (.rect1TS p, 0x6E#8), (.rect1TSR p, 0x6F#8),
      (.rect8T p, 0x74#8), (.rect8TR p, 0x75#8), (.rect8TS p, 0x76#8), (.rect8TSR p, 0x77#8),
      (.rect16T p, 0x7C#8), (.rect16TR p, 0x7D#8), (.rect16TS p, 0x7E#8), (.rect16TSR p, 0x7F#8)] →
    exec i s = .next { s with result := .error (.reservedDepth (p.c.toWord op)) })

/-- 45_triangle_raster.md R287, 70_reset_and_hazards.md R436: the pixels of a triangle or rectangle are drawn rows ascending,
then `x` ascending: drawing in an area is drawing in its upper rows and then in its lower rows, and in an area of one row
drawing in its left part and then in its right part (the spec's D24). -/
def Obligations.PixelsAreDrawnRowsAscendingThenColumns : Prop :=
  ∀ (i : Instr) (s : State) (a : DrawArea), isOneSurface i = true → a = s.drawArea →
    (∀ m : BitVec 9, a.minY ≤ m → m < a.maxY →
      ∃ t u, exec i { s with drawArea := { a with maxY := m } } = .next t ∧
        exec i { t with drawArea := { a with minY := m + 1 } } = .next u ∧
        exec i s = .next { u with drawArea := a }) ∧
    (∀ m : BitVec 10, a.minY = a.maxY → a.minX ≤ m → m < a.maxX →
      ∃ t u, exec i { s with drawArea := { a with maxX := m } } = .next t ∧
        exec i { t with drawArea := { a with minX := m + 1 } } = .next u ∧
        exec i s = .next { u with drawArea := a })

/-- 45_triangle_raster.md R289: two triangles that share an edge and lie on its two sides cover no pixel twice, in whatever
order their vertices stand, and cover every pixel of the shared edge that lies inside both once; a pixel strictly inside is
covered; a vertex is covered only if both edges meeting there are top or left edges (the left edge is `dy < 0`, 90_conflicts.md
C1). -/
def Obligations.TrianglesThatShareAnEdgeCoverNoPixelTwice : Prop :=
  (∀ (p q a b v0 v1 v2 u0 u1 u2 : Vert) (x y : Int), edge p.x p.y q.x q.y a.x a.y * edge p.x p.y q.x q.y b.x b.y < 0 →
    [v0, v1, v2].Perm [p, q, a] → [u0, u1, u2].Perm [p, q, b] →
    ¬ (covers v0 v1 v2 x y = true ∧ covers u0 u1 u2 x y = true) ∧
    (∀ t t', setup v0 v1 v2 = some t → setup u0 u1 u2 = some t' → edge p.x p.y q.x q.y x y = 0 →
      0 ≤ t.w0 x y → 0 ≤ t.w1 x y → 0 ≤ t.w2 x y → 0 ≤ t'.w0 x y → 0 ≤ t'.w1 x y → 0 ≤ t'.w2 x y →
      (x, y) ≠ (p.x, p.y) → (x, y) ≠ (q.x, q.y) → (covers v0 v1 v2 x y = true ∨ covers u0 u1 u2 x y = true))) ∧
  (∀ (v0 v1 v2 : Vert) (t : Tri) (x y : Int), setup v0 v1 v2 = some t →
    (0 < t.w0 x y → 0 < t.w1 x y → 0 < t.w2 x y → covers v0 v1 v2 x y = true) ∧
    (covers v0 v1 v2 t.v0.x t.v0.y = true →
      topLeft t.v2.x t.v2.y t.v0.x t.v0.y = true ∧ topLeft t.v0.x t.v0.y t.v1.x t.v1.y = true) ∧
    (covers v0 v1 v2 t.v1.x t.v1.y = true →
      topLeft t.v0.x t.v0.y t.v1.x t.v1.y = true ∧ topLeft t.v1.x t.v1.y t.v2.x t.v2.y = true) ∧
    (covers v0 v1 v2 t.v2.x t.v2.y = true →
      topLeft t.v1.x t.v1.y t.v2.x t.v2.y = true ∧ topLeft t.v2.x t.v2.y t.v0.x t.v0.y = true))

/-- 47_rectangle.md R336: the two triangles of a rectangle cover exactly its pixels, each once, and give each its texel (the
left edge is `dy < 0`, 90_conflicts.md C1). -/
def Obligations.ARectangleIsItsTwoTriangles : Prop :=
  ∀ (px py : Int) (w h u0 v0 : Nat) (c : Color) (a b d e : Vert), 0 < w → 0 < h → u0 + w ≤ 255 → v0 + h ≤ 255 →
    a = ⟨px, py, c, ⟨BitVec.ofNat 8 u0, BitVec.ofNat 8 v0⟩⟩ →
    b = ⟨px + w, py, c, ⟨BitVec.ofNat 8 (u0 + w), BitVec.ofNat 8 v0⟩⟩ →
    d = ⟨px, py + h, c, ⟨BitVec.ofNat 8 u0, BitVec.ofNat 8 (v0 + h)⟩⟩ →
    e = ⟨px + w, py + h, c, ⟨BitVec.ofNat 8 (u0 + w), BitVec.ofNat 8 (v0 + h)⟩⟩ →
    (∀ x y : Int, (covers a b d x y = true ∨ covers b d e x y = true) ↔
      (px ≤ x ∧ x ≤ px + w - 1 ∧ py ≤ y ∧ y ≤ py + h - 1)) ∧
    (∀ x y : Int, ¬ (covers a b d x y = true ∧ covers b d e x y = true)) ∧
    (∀ (t : Tri) (x y : Int), (setup a b d = some t ∨ setup b d e = some t) → t.inside x y = true →
      (t.interpolate x y t.v0.t.u t.v1.t.u t.v2.t.u : Int) = u0 + (x - px) ∧
      (t.interpolate x y t.v0.t.v t.v1.t.v t.v2.t.v : Int) = v0 + (y - py))

/-- 45_triangle_raster.md R299, R284: the bounds of every value the filler computes, and that the three weights sum to the
area. 44_polygon.md R238: and a placed coordinate is the sum of coordinate and draw offset brought back to a signed 11-bit
value, the one value from -1024 to 1023 that differs from the sum by a multiple of 2048 (the spec's D26). -/
def Obligations.TheFillerStaysInside32Bits : Prop :=
  (∀ v d : BitVec 11, -1024 ≤ place v d ∧ place v d ≤ 1023 ∧ ∃ k : Int, place v d = v.toInt + d.toInt + 2048 * k) ∧
  ∀ (off : DrawOffset) (p0 p1 p2 : Vertex) (c0 c1 c2 : Color) (t0 t1 t2 : Uv) (t : Tri) (x y : Int),
    setup (vert off p0 c0 t0) (vert off p1 c1 t1) (vert off p2 c2 t2) = some t →
    -1024 ≤ x → x ≤ 1023 → -1024 ≤ y → y ≤ 1023 →
    (∀ v, v = t.v0 ∨ v = t.v1 ∨ v = t.v2 → -1024 ≤ v.x ∧ v.x ≤ 1023 ∧ -1024 ≤ v.y ∧ v.y ≤ 1023) ∧
    0 < t.area ∧ t.area ≤ 8380418 ∧ t.w0 x y + t.w1 x y + t.w2 x y = t.area ∧
    |t.w0 x y| ≤ 8380418 ∧ |t.w1 x y| ≤ 8380418 ∧ |t.w2 x y| ≤ 8380418 ∧
    (t.inside x y = true → 0 ≤ t.w0 x y ∧ 0 ≤ t.w1 x y ∧ 0 ≤ t.w2 x y ∧
      ∀ b0 b1 b2 : Byte,
        (b0.toNat : Int) * t.w0 x y + (b1.toNat : Int) * t.w1 x y + (b2.toNat : Int) * t.w2 x y ≤ 255 * t.area ∧
        255 * t.area ≤ 2137006590 ∧ t.interpolate x y b0 b1 b2 ≤ 255)

/-- 46_pixel_pipeline.md R302, R311 to R313, R315: quantisation, modulation and blending act on each 5-bit lane on its own,
saturate at 31 and 0, and carry the mask bit of the front; which pixels are blended (the operators' rounding is the spec's
D21, D29, D30). 46_pixel_pipeline.md R304 to R309, 30_encoding.md R111, R112: and which word a texel is, by the fields of the
page and the palette: the nibble `u % 4` of the page's column `u / 4`, or the byte `u % 2` of its column `u / 2`, through the
CLUT, or the column `u` itself (nibble 0 and byte 0 the low ones: the spec's D32). -/
def Obligations.PixelArithmeticActsLaneByLane : Prop :=
  (∀ r g b : Byte, red5 (quantisedPixel r.toNat g.toNat b.toNat) = r.toNat / 8 ∧
    green5 (quantisedPixel r.toNat g.toNat b.toNat) = g.toNat / 8 ∧
    blue5 (quantisedPixel r.toNat g.toNat b.toNat) = b.toNat / 8 ∧
    maskBit (quantisedPixel r.toNat g.toNat b.toNat) = false) ∧
  (∀ (s : Half) (m : Color), red5 (modulate s m) = min 31 (red5 s * m.r.toNat / 128) ∧
    green5 (modulate s m) = min 31 (green5 s * m.g.toNat / 128) ∧
    blue5 (modulate s m) = min 31 (blue5 s * m.b.toNat / 128) ∧ maskBit (modulate s m) = s.getLsbD 15) ∧
  (∀ (op : BitVec 2) (back front : Half) (lane : Half → Nat), lane = red5 ∨ lane = green5 ∨ lane = blue5 →
    (op = 0#2 → lane (blend op back front) = lane back / 2 + lane front / 2) ∧
    (op = 1#2 → lane (blend op back front) = min 31 (lane back + lane front)) ∧
    (op = 2#2 → lane (blend op back front) = lane back - lane front) ∧
    (op = 3#2 → lane (blend op back front) = min 31 (lane back + lane front / 4)) ∧
    maskBit (blend op back front) = front.getLsbD 15) ∧
  (∀ (ctx : Ctx) (front back : Half), written ctx front back =
    if ctx.semi = true ∧ (ctx.rt = .shaded ∨ front.getLsbD 15 = true) then blend ctx.op back front else front) ∧
  (∀ (vram : List (Nat × BitVec 16)) (ctx : Ctx) (u v : Nat) (column : Nat → Half) (entry : Nat → Half),
    column = (fun c => vramRead vram (64 * ctx.page.pageX.toNat + c) (256 * ctx.page.pageY.toNat + v)) →
    entry = (fun k => vramRead vram (16 * ctx.pal.px.toNat + k) ctx.pal.py.toNat) →
    (ctx.rt = .texP4 → sample vram ctx u v = entry ((column (u / 4)).extractLsb' (4 * (u % 4)) 4).toNat) ∧
    (ctx.rt = .texP8 → sample vram ctx u v = entry ((column (u / 2)).extractLsb' (8 * (u % 2)) 8).toNat) ∧
    (ctx.rt = .texD16 → sample vram ctx u v = column u))
end

