-- ==== Sys2Proof/Laws/Memory.lean ====
section
/-! SUPPORT. The laws of the sparse memories: read after write, every other key unchanged, the canonical form kept. -/

namespace Sys2Proof.Machine

variable {w : Nat}

/-! ## Reading after erasing, inserting, writing -/

theorem cellRead_erase (m : List (Nat × BitVec w)) (k k' : Nat) :
    cellRead (cellErase m k) k' = if k' = k then 0 else cellRead m k' := by
  induction m with
  | nil => simp [cellErase, cellRead]
  | cons p t ih =>
    obtain ⟨j, v⟩ := p
    by_cases hj : j = k
    · subst hj
      by_cases hk : k' = j
      · subst hk; simpa [cellErase] using ih
      · simpa [cellErase, cellRead, hk, Ne.symm hk] using ih
    · by_cases hk : j = k'
      · subst hk; simp [cellErase, cellRead, hj]
      · simpa [cellErase, cellRead, hj, hk] using ih

theorem cellRead_insert (m : List (Nat × BitVec w)) (k k' : Nat) (v : BitVec w) :
    cellRead (cellInsert m k v) k' = if k' = k then v else cellRead m k' := by
  induction m with
  | nil =>
    by_cases hk : k' = k
    · subst hk; simp [cellInsert, cellRead]
    · simp [cellInsert, cellRead, hk, Ne.symm hk]
  | cons p t ih =>
    obtain ⟨j, u⟩ := p
    by_cases hlt : k < j
    · by_cases hk : k' = k
      · subst hk; simp [cellInsert, cellRead, hlt]
      · simp [cellInsert, cellRead, hlt, hk, Ne.symm hk]
    · by_cases hj : k = j
      · subst hj
        by_cases hk : k' = k
        · subst hk; simp [cellInsert, cellRead]
        · simp [cellInsert, cellRead, hk, Ne.symm hk]
      · by_cases hk : j = k'
        · subst hk; simp [cellInsert, cellRead, hlt, hj, Ne.symm hj]
        · simpa [cellInsert, cellRead, hlt, hj, hk] using ih

/-- A write is read back at its key and leaves every other key as it was. -/
theorem cellRead_write (m : List (Nat × BitVec w)) (k k' : Nat) (v : BitVec w) :
    cellRead (cellWrite m k v) k' = if k' = k then v else cellRead m k' := by
  unfold cellWrite
  by_cases hv : v = 0
  · rw [if_pos hv, cellRead_erase, hv]
  · rw [if_neg hv, cellRead_insert]

@[simp] theorem cellRead_write_same (m : List (Nat × BitVec w)) (k : Nat) (v : BitVec w) :
    cellRead (cellWrite m k v) k = v := by simp [cellRead_write]

theorem cellRead_write_other (m : List (Nat × BitVec w)) {k k' : Nat} (v : BitVec w) (h : k' ≠ k) :
    cellRead (cellWrite m k v) k' = cellRead m k' := by simp [cellRead_write, h]

/-! ## The canonical form -/

/-- The canonical form of a longer list: the head is good, lies below the tail, and the tail is canonical. -/
theorem cellsWf_cons (b k : Nat) (v : BitVec w) (t : List (Nat × BitVec w)) :
    cellsWf b ((k, v) :: t) = true ↔
      k < b ∧ v ≠ 0 ∧ (∀ p ∈ t, k < p.1) ∧ cellsWf b t = true := by
  induction t generalizing k v with
  | nil => simp [cellsWf]
  | cons p t ih =>
    obtain ⟨j, u⟩ := p
    have hj := ih j u
    simp only [cellsWf, Bool.and_eq_true, decide_eq_true_eq, bne_iff_ne]
    constructor
    · rintro ⟨⟨hkj, hv⟩, ht⟩
      obtain ⟨hjb, -, hall, -⟩ := hj.1 ht
      refine ⟨by omega, hv, ?_, ht⟩
      intro p hp
      rcases List.mem_cons.1 hp with rfl | hp
      · exact hkj
      · exact lt_trans hkj (hall p hp)
    · rintro ⟨-, hv, hall, ht⟩
      exact ⟨⟨hall (j, u) (List.mem_cons_self ..), hv⟩, ht⟩

theorem mem_cellErase {m : List (Nat × BitVec w)} {k : Nat} {p : Nat × BitVec w} (h : p ∈ cellErase m k) : p ∈ m := by
  induction m with
  | nil => simp [cellErase] at h
  | cons q t ih =>
    obtain ⟨j, u⟩ := q
    by_cases hj : j = k
    · simp only [cellErase, hj, if_true] at h; exact List.mem_cons_of_mem _ (ih h)
    · simp only [cellErase, hj, if_false, List.mem_cons] at h
      rcases h with rfl | h
      · exact List.mem_cons_self ..
      · exact List.mem_cons_of_mem _ (ih h)

theorem mem_cellInsert {m : List (Nat × BitVec w)} {k : Nat} {v : BitVec w} {p : Nat × BitVec w}
    (h : p ∈ cellInsert m k v) : p = (k, v) ∨ p ∈ m := by
  induction m with
  | nil => simpa [cellInsert] using h
  | cons q t ih =>
    obtain ⟨j, u⟩ := q
    by_cases hlt : k < j
    · simpa [cellInsert, hlt] using h
    · by_cases hj : k = j
      · subst hj
        simp only [cellInsert, lt_irrefl, if_false, if_true, List.mem_cons] at h ⊢
        tauto
      · simp only [cellInsert, hlt, hj, if_false, List.mem_cons] at h ⊢
        rcases h with h | h
        · exact .inr (.inl h)
        · rcases ih h with h | h
          · exact .inl h
          · exact .inr (.inr h)

theorem cellsWf_erase {b : Nat} {m : List (Nat × BitVec w)} (k : Nat) (h : cellsWf b m = true) :
    cellsWf b (cellErase m k) = true := by
  induction m with
  | nil => simpa [cellErase] using h
  | cons p t ih =>
    obtain ⟨j, u⟩ := p
    obtain ⟨hjb, hu, hall, ht⟩ := (cellsWf_cons b j u t).1 h
    by_cases hj : j = k
    · simpa [cellErase, hj] using ih ht
    · simp only [cellErase, hj, if_false]
      exact (cellsWf_cons ..).2 ⟨hjb, hu, fun p hp => hall p (mem_cellErase hp), ih ht⟩

theorem cellsWf_insert {b : Nat} {m : List (Nat × BitVec w)} {k : Nat} {v : BitVec w} (hk : k < b) (hv : v ≠ 0)
    (h : cellsWf b m = true) : cellsWf b (cellInsert m k v) = true := by
  induction m with
  | nil => exact (cellsWf_cons ..).2 ⟨hk, hv, by simp, rfl⟩
  | cons p t ih =>
    obtain ⟨j, u⟩ := p
    obtain ⟨hjb, hu, hall, ht⟩ := (cellsWf_cons b j u t).1 h
    by_cases hlt : k < j
    · simp only [cellInsert, hlt, if_true]
      refine (cellsWf_cons ..).2 ⟨hk, hv, ?_, h⟩
      intro p hp
      rcases List.mem_cons.1 hp with rfl | hp
      · exact hlt
      · exact lt_trans hlt (hall p hp)
    · by_cases hj : k = j
      · subst hj
        simp only [cellInsert, lt_irrefl, if_false, if_true]
        exact (cellsWf_cons ..).2 ⟨hk, hv, hall, ht⟩
      · simp only [cellInsert, hlt, hj, if_false]
        refine (cellsWf_cons ..).2 ⟨hjb, hu, ?_, ih ht⟩
        intro p hp
        rcases mem_cellInsert hp with rfl | hp
        · show j < k; omega
        · exact hall p hp

/-- A write below the bound keeps the canonical form. -/
theorem cellsWf_write {b : Nat} {m : List (Nat × BitVec w)} {k : Nat} (v : BitVec w) (hk : k < b)
    (h : cellsWf b m = true) : cellsWf b (cellWrite m k v) = true := by
  unfold cellWrite
  split
  · exact cellsWf_erase k h
  · exact cellsWf_insert hk ‹_› h

/-! ## RAM -/

theorem ramRead8_write8 (m : List Host.Cell) (a b : Nat) (v : Byte) :
    ramRead8 (ramWrite8 m a v) b = if b = a then v else ramRead8 m b := cellRead_write m a b v

theorem ramRead8_write16 (m : List Host.Cell) (a b : Nat) (v : Half) :
    ramRead8 (ramWrite16 m a v) b =
      if b = a then v.extractLsb' 0 8 else if b = a + 1 then v.extractLsb' 8 8 else ramRead8 m b := by
  simp only [ramWrite16, ramRead8_write8]
  split_ifs <;> first | rfl | omega

/-- Each byte after a 32-bit store: its four bytes low first, every other byte as before (R61). -/
theorem ramRead8_write32 (m : List Host.Cell) (a b : Nat) (v : Word) :
    ramRead8 (ramWrite32 m a v) b =
      if b = a then v.extractLsb' 0 8
      else if b = a + 1 then v.extractLsb' 8 8
      else if b = a + 2 then v.extractLsb' 16 8
      else if b = a + 3 then v.extractLsb' 24 8
      else ramRead8 m b := by
  simp only [ramWrite32, ramRead8_write8]
  split_ifs <;> first | rfl | omega

theorem word_of_bytes (v : Word) :
    v.extractLsb' 24 8 ++ v.extractLsb' 16 8 ++ v.extractLsb' 8 8 ++ v.extractLsb' 0 8 = v := by
  apply BitVec.eq_of_getLsbD_eq
  intro i hi
  simp only [BitVec.getLsbD_append, BitVec.getLsbD_extractLsb']
  interval_cases i <;> simp

theorem half_of_bytes (v : Half) : v.extractLsb' 8 8 ++ v.extractLsb' 0 8 = v := by
  apply BitVec.eq_of_getLsbD_eq
  intro i hi
  simp only [BitVec.getLsbD_append, BitVec.getLsbD_extractLsb']
  interval_cases i <;> simp

/-- A 32-bit store is read back (R64). -/
@[simp] theorem ramRead32_write32_same (m : List Host.Cell) (a : Nat) (v : Word) :
    ramRead32 (ramWrite32 m a v) a = v := by
  simp only [ramRead32, ramRead8_write32]
  simpa using word_of_bytes v

/-- A 32-bit read that no stored byte touches. -/
theorem ramRead32_write32_disjoint (m : List Host.Cell) {a b : Nat} (v : Word) (h : a + 4 ≤ b ∨ b + 4 ≤ a) :
    ramRead32 (ramWrite32 m a v) b = ramRead32 m b := by
  simp only [ramRead32, ramRead8_write32]
  congr 1
  · congr 1
    · congr 1
      all_goals (split_ifs <;> first | rfl | omega)
    · split_ifs <;> first | rfl | omega
  · split_ifs <;> first | rfl | omega

theorem Memory.wf_write8 {m : List Host.Cell} {a : Nat} (v : Byte) (ha : a < Config.ramSize) (h : Memory.wf m = true) :
    Memory.wf (ramWrite8 m a v) = true := cellsWf_write v ha h

theorem Memory.wf_write16 {m : List Host.Cell} {a : Nat} (v : Half) (ha : a + 1 < Config.ramSize)
    (h : Memory.wf m = true) : Memory.wf (ramWrite16 m a v) = true :=
  wf_write8 _ ha (wf_write8 _ (by omega) h)

theorem Memory.wf_write32 {m : List Host.Cell} {a : Nat} (v : Word) (ha : a + 3 < Config.ramSize)
    (h : Memory.wf m = true) : Memory.wf (ramWrite32 m a v) = true :=
  wf_write8 _ ha (wf_write8 _ (by omega) (wf_write8 _ (by omega) (wf_write8 _ (by omega) h)))

/-! ## Addresses of the DMA engine -/

/-- The masked address as a number (R63). -/
theorem dmaAddr_toNat (a : Word) : (dmaAddr a).toNat = a.toNat % 2097152 / 4 * 4 := by
  have h : dmaAddr a = BitVec.ofNat 32 (a.toNat % 2097152 / 4 * 4) := by
    apply BitVec.eq_of_getLsbD_eq
    intro i hi
    have e : a.toNat % 2097152 / 4 * 4 = ((a.toNat % 2 ^ 21) >>> 2) <<< 2 := by
      rw [Nat.shiftRight_eq_div_pow, Nat.shiftLeft_eq]; rfl
    rw [e]
    simp only [dmaAddr, Config.addrMask, BitVec.getLsbD_and, BitVec.getLsbD_ofNat, hi, decide_true, Bool.true_and,
      Nat.testBit_shiftLeft, Nat.testBit_shiftRight, Nat.testBit_mod_two_pow]
    simp only [BitVec.getLsbD]
    interval_cases i <;> simp [Nat.testBit, Nat.shiftRight_eq_div_pow]
  rw [h, BitVec.toNat_ofNat]
  omega

/-- A masked address is word-aligned and its four bytes lie in RAM (R63). -/
theorem dmaAddr_lt (a : Word) : (dmaAddr a).toNat + 3 < Config.ramSize := by
  have := dmaAddr_toNat a
  simp only [Config.ramSize]
  omega

theorem dmaAddr_aligned (a : Word) : (dmaAddr a).toNat % 4 = 0 := by
  have := dmaAddr_toNat a
  omega

/-- A DMA store keeps the canonical form (R191). -/
theorem Memory.wf_dmaWrite {m : List Host.Cell} (a v : Word) (h : Memory.wf m = true) :
    Memory.wf (ramWrite32 m (dmaAddr a).toNat v) = true := wf_write32 v (dmaAddr_lt a) h

@[simp] theorem dmaAddr_idem (a : Word) : dmaAddr (dmaAddr a) = dmaAddr a := by
  apply BitVec.eq_of_toNat_eq
  simp only [dmaAddr_toNat]
  omega

/-! ## VRAM -/

theorem vramKey_lt (x y : Nat) : vramKey x y < Config.vramW * Config.vramH := by
  simp only [vramKey, Config.vramW, Config.vramH]
  omega

/-- Two pixels inside VRAM have the same key only if they are the same pixel (R70). -/
theorem vramKey_inj {x y x' y' : Nat} (hx : x < 1024) (hy : y < 512) (hx' : x' < 1024) (hy' : y' < 512) :
    vramKey x y = vramKey x' y' ↔ x = x' ∧ y = y' := by
  simp only [vramKey, Config.vramW, Config.vramH]
  omega

theorem vramRead_write (m : List (Nat × BitVec 16)) (x y x' y' : Nat) (v : Half) :
    vramRead (vramWrite m x y v) x' y' = if vramKey x' y' = vramKey x y then v else vramRead m x' y' :=
  cellRead_write m _ _ v

@[simp] theorem vramRead_write_same (m : List (Nat × BitVec 16)) (x y : Nat) (v : Half) :
    vramRead (vramWrite m x y v) x y = v := by simp [vramRead_write]

theorem vramRead_wrap (m : List (Nat × BitVec 16)) (x y : Nat) : vramRead m (x % 1024) (y % 512) = vramRead m x y := by
  simp [vramRead, vramKey, Config.vramW, Config.vramH]

theorem Vram.wf_write {m : List (Nat × BitVec 16)} (x y : Nat) (v : Half) (h : Vram.wf m = true) :
    Vram.wf (vramWrite m x y v) = true := cellsWf_write v (vramKey_lt x y) h

end Sys2Proof.Machine
end

