-- ==== Sys2Proof/Laws/Drawing.lean ====
section
/-! SUPPORT. The laws of the drawing loops: what a loop over pixels does to each pixel, that a covered pixel lies in the
bounding box of its triangle, and that each drawing operation keeps VRAM in canonical form. -/

namespace Sys2Proof.Machine

/-! ## Loops -/

/-- What a loop keeps: a property that every round keeps. -/
theorem forRange_keeps {α : Type} (P : α → Prop) (f : Nat → α → α) (hf : ∀ i a, P a → P (f i a)) (n lo : Nat) (a : α)
    (h : P a) : P (forRange n lo f a) := by
  induction n generalizing lo a with
  | zero => exact h
  | succ n ih => exact ih (lo + 1) (f lo a) (hf lo a h)

/-- A loop is its first rounds and then the others. -/
theorem forRange_add {α : Type} (n m lo : Nat) (f : Nat → α → α) (a : α) :
    forRange (n + m) lo f a = forRange m (lo + n) f (forRange n lo f a) := by
  induction n generalizing lo a with
  | zero => simp [forRange]
  | succ n ih =>
    rw [show n + 1 + m = (n + m) + 1 by omega]
    simp only [forRange]
    rw [ih, show lo + 1 + n = lo + (n + 1) by omega]

/-- Two loops with the same rounds. -/
theorem forRange_congr {α : Type} (n lo : Nat) {f g : Nat → α → α} (h : ∀ i, lo ≤ i → i < lo + n → ∀ a, f i a = g i a)
    (a : α) : forRange n lo f a = forRange n lo g a := by
  induction n generalizing lo a with
  | zero => rfl
  | succ n ih =>
    simp only [forRange]
    rw [h lo (by omega) (by omega), ih (lo + 1) (fun i h1 h2 => h i (by omega) (by omega))]

open Classical in
/-- A loop whose rounds own disjoint sets of cells: each cell changes once, in the round that owns it. -/
theorem forRange_cells {α K V : Type} (rd : α → K → V) (valid : K → Prop) (own : Nat → K → Prop) (after : K → V → V)
    (P : α → Prop) (f : Nat → α → α) (hd : ∀ i j k, own i k → own j k → i = j) (n lo : Nat)
    (hf : ∀ i, lo ≤ i → i < lo + n → ∀ a, P a → P (f i a) ∧
      ∀ k, valid k → rd (f i a) k = if own i k then after k (rd a k) else rd a k) (a : α) (ha : P a) :
    P (forRange n lo f a) ∧ ∀ k, valid k → rd (forRange n lo f a) k =
      if ∃ i, lo ≤ i ∧ i < lo + n ∧ own i k then after k (rd a k) else rd a k := by
  induction n generalizing lo a with
  | zero =>
    refine ⟨ha, fun k _ => ?_⟩
    rw [if_neg (by rintro ⟨i, h1, h2, -⟩; omega)]; rfl
  | succ n ih =>
    obtain ⟨hP, hr⟩ := hf lo (Nat.le_refl _) (by omega) a ha
    obtain ⟨hP', hr'⟩ := ih (lo + 1) (fun i h1 h2 => hf i (by omega) (by omega)) (f lo a) hP
    refine ⟨hP', fun k hk => ?_⟩
    show rd (forRange n (lo + 1) f (f lo a)) k = _
    rw [hr' k hk, hr k hk]
    by_cases h0 : own lo k
    · rw [if_neg (by rintro ⟨i, h1, h2, h3⟩; have := hd _ _ _ h0 h3; omega), if_pos h0,
        if_pos ⟨lo, Nat.le_refl _, by omega, h0⟩]
    · by_cases h1 : ∃ i, lo + 1 ≤ i ∧ i < lo + 1 + n ∧ own i k
      · obtain ⟨i, hi1, hi2, hi3⟩ := h1
        rw [if_pos ⟨i, hi1, hi2, hi3⟩, if_neg h0, if_pos ⟨i, by omega, by omega, hi3⟩]
      · rw [if_neg h1, if_neg h0, if_neg]
        rintro ⟨i, hi1, hi2, hi3⟩
        rcases Nat.eq_or_lt_of_le hi1 with rfl | hlt
        · exact h0 hi3
        · exact h1 ⟨i, hlt, by omega, hi3⟩

open Classical in
/-- What a scan of a box inside VRAM does to each pixel, when each visit changes its own pixel only. -/
theorem scanBox_pixel (P : List (Nat × BitVec 16) → Prop) (after : Nat → Nat → Half → Half)
    (f : Nat → Nat → List (Nat × BitVec 16) → List (Nat × BitVec 16)) {x0 x1 y0 y1 : Int} (hx0 : 0 ≤ x0)
    (hy0 : 0 ≤ y0)
    (hf : ∀ x y : Nat, x0 ≤ x → (x : Int) ≤ x1 → y0 ≤ y → (y : Int) ≤ y1 → ∀ m, P m → P (f x y m) ∧
      vramRead (f x y m) x y = after x y (vramRead m x y) ∧
      ∀ x' y' : Nat, x' < 1024 → y' < 512 → ¬ (x' = x ∧ y' = y) → vramRead (f x y m) x' y' = vramRead m x' y')
    (m : List (Nat × BitVec 16)) (hm : P m) :
    P (scanBox x0 x1 y0 y1 f m) ∧ ∀ x y : Nat, x < 1024 → y < 512 → vramRead (scanBox x0 x1 y0 y1 f m) x y =
      if x0 ≤ x ∧ (x : Int) ≤ x1 ∧ y0 ≤ y ∧ (y : Int) ≤ y1 then after x y (vramRead m x y) else vramRead m x y := by
  have row : ∀ y : Nat, y0 ≤ y → (y : Int) ≤ y1 → ∀ m, P m →
      P (forRange (rangeCount x0 x1) x0.toNat (fun x m' => f x y m') m) ∧
      ∀ k : Nat × Nat, k.1 < 1024 ∧ k.2 < 512 →
        vramRead (forRange (rangeCount x0 x1) x0.toNat (fun x m' => f x y m') m) k.1 k.2 =
          if x0 ≤ k.1 ∧ (k.1 : Int) ≤ x1 ∧ k.2 = y then after k.1 k.2 (vramRead m k.1 k.2) else vramRead m k.1 k.2 := by
    intro y hy hy' m hm
    have := forRange_cells (fun (a : List (Nat × BitVec 16)) (k : Nat × Nat) => vramRead a k.1 k.2)
      (fun k => k.1 < 1024 ∧ k.2 < 512) (fun i k => k = (i, y)) (fun k v => after k.1 k.2 v) P
      (fun x m' => f x y m') (fun i j k h1 h2 => by rw [h1] at h2; exact (Prod.mk.inj h2).1)
      (rangeCount x0 x1) x0.toNat (fun i h1 h2 a ha => by
        have hi : x0 ≤ i ∧ (i : Int) ≤ x1 := by simp only [rangeCount] at h2; omega
        obtain ⟨q1, q2, q3⟩ := hf i y hi.1 hi.2 hy hy' a ha
        refine ⟨q1, fun k hk => ?_⟩
        by_cases hki : k = (i, y)
        · rw [if_pos hki, hki]; exact q2
        · rw [if_neg hki]
          exact q3 k.1 k.2 hk.1 hk.2 (fun hh => hki (Prod.ext hh.1 hh.2))) m hm
    refine ⟨this.1, fun k hk => ?_⟩
    rw [this.2 k hk]
    refine if_congr ?_ rfl rfl
    constructor
    · rintro ⟨i, h1, h2, rfl⟩
      simp only [rangeCount] at h2
      exact ⟨by show x0 ≤ (i : Int); omega, by show (i : Int) ≤ x1; omega, rfl⟩
    · rintro ⟨h1, h2, h3⟩
      refine ⟨k.1, by omega, by simp only [rangeCount]; omega, Prod.ext rfl h3⟩
  have := forRange_cells (fun (a : List (Nat × BitVec 16)) (k : Nat × Nat) => vramRead a k.1 k.2)
    (fun k => k.1 < 1024 ∧ k.2 < 512) (fun j k => x0 ≤ k.1 ∧ (k.1 : Int) ≤ x1 ∧ k.2 = j) (fun k v => after k.1 k.2 v) P
    (fun y m => forRange (rangeCount x0 x1) x0.toNat (fun x m' => f x y m') m)
    (fun i j k h1 h2 => h1.2.2.symm.trans h2.2.2) (rangeCount y0 y1) y0.toNat (fun j h1 h2 a ha => by
      have hj : y0 ≤ j ∧ (j : Int) ≤ y1 := by simp only [rangeCount] at h2; omega
      obtain ⟨q1, q2⟩ := row j hj.1 hj.2 a ha
      refine ⟨q1, fun k hk => ?_⟩
      rw [q2 k hk]
      split_ifs <;> rfl) m hm
  refine ⟨this.1, fun x y hx hy => ?_⟩
  have h := this.2 (x, y) ⟨hx, hy⟩
  show vramRead (forRange _ _ _ m) x y = _
  rw [h]
  refine if_congr ?_ rfl rfl
  constructor
  · rintro ⟨j, h1, h2, h3, h4, rfl⟩
    simp only [rangeCount] at h2
    exact ⟨h3, h4, by omega, by omega⟩
  · rintro ⟨h1, h2, h3, h4⟩
    exact ⟨y, by omega, by simp only [rangeCount]; omega, h1, h2, rfl⟩

/-! ## One pixel -/

theorem putPixel_same (ctx : Ctx) (x y : Nat) (front : Half) (m : List (Nat × BitVec 16)) :
    vramRead (putPixel ctx x y front m) x y = written ctx front (vramRead m x y) := by
  unfold putPixel written; simp

theorem putPixel_other (ctx : Ctx) {x y x' y' : Nat} (front : Half) (m : List (Nat × BitVec 16)) (hx : x < 1024)
    (hy : y < 512) (hx' : x' < 1024) (hy' : y' < 512) (h : ¬ (x' = x ∧ y' = y)) :
    vramRead (putPixel ctx x y front m) x' y' = vramRead m x' y' := by
  unfold putPixel
  rw [vramRead_write, if_neg]
  rw [vramKey_inj hx' hy' hx hy]; exact h

theorem texturedPixel_same (ctx : Ctx) (x y u v : Nat) (m : List (Nat × BitVec 16)) :
    vramRead (texturedPixel ctx x y u v m) x y = textured m ctx u v (vramRead m x y) := by
  unfold texturedPixel textured
  dsimp only
  split
  · rfl
  · exact putPixel_same ..

theorem texturedPixel_other (ctx : Ctx) {x y x' y' : Nat} (u v : Nat) (m : List (Nat × BitVec 16)) (hx : x < 1024)
    (hy : y < 512) (hx' : x' < 1024) (hy' : y' < 512) (h : ¬ (x' = x ∧ y' = y)) :
    vramRead (texturedPixel ctx x y u v m) x' y' = vramRead m x' y' := by
  unfold texturedPixel
  dsimp only
  split
  · rfl
  · exact putPixel_other ctx _ m hx hy hx' hy' h

/-! ## Canonical form -/

theorem Vram.wf_putPixel (ctx : Ctx) (x y : Nat) (front : Half) {m : List (Nat × BitVec 16)} (h : Vram.wf m = true) :
    Vram.wf (putPixel ctx x y front m) = true := Vram.wf_write x y _ h

theorem Vram.wf_texturedPixel (ctx : Ctx) (x y u v : Nat) {m : List (Nat × BitVec 16)} (h : Vram.wf m = true) :
    Vram.wf (texturedPixel ctx x y u v m) = true := by
  unfold texturedPixel
  dsimp only
  split
  · exact h
  · exact wf_putPixel ctx x y _ h

theorem Vram.wf_drawPixel (t : Tri) (ctx : Ctx) (x y : Nat) {m : List (Nat × BitVec 16)} (h : Vram.wf m = true) :
    Vram.wf (t.drawPixel ctx x y m) = true := by
  unfold Tri.drawPixel
  split
  · exact wf_putPixel ctx x y _ h
  all_goals exact wf_texturedPixel ctx x y _ _ h

theorem Vram.wf_scanBox (x0 x1 y0 y1 : Int) {f : Nat → Nat → List (Nat × BitVec 16) → List (Nat × BitVec 16)}
    (hf : ∀ x y m, Vram.wf m = true → Vram.wf (f x y m) = true) {m : List (Nat × BitVec 16)} (h : Vram.wf m = true) :
    Vram.wf (scanBox x0 x1 y0 y1 f m) = true :=
  forRange_keeps (fun m => Vram.wf m = true) _
    (fun y m hm => forRange_keeps (fun m => Vram.wf m = true) _ (fun x m' hm' => hf x y m' hm') _ _ m hm) _ _ m h

theorem Vram.wf_drawTriangle (ctx : Ctx) (area : DrawArea) (v0 v1 v2 : Vert) {m : List (Nat × BitVec 16)}
    (h : Vram.wf m = true) : Vram.wf (drawTriangle ctx area v0 v1 v2 m) = true := by
  unfold drawTriangle
  split
  · exact h
  · rename_i t _
    refine wf_scanBox _ _ _ _ (fun x y m hm => ?_) h
    split
    · exact wf_drawPixel t ctx x y hm
    · exact hm

theorem Vram.wf_drawPolygon (ctx : Ctx) (area : DrawArea) (v0 v1 v2 : Vert) (v3 : Option Vert)
    {m : List (Nat × BitVec 16)} (h : Vram.wf m = true) : Vram.wf (drawPolygon ctx area v0 v1 v2 v3 m) = true := by
  unfold drawPolygon
  split
  · exact wf_drawTriangle ctx area _ _ _ h
  · exact wf_drawTriangle ctx area _ _ _ (wf_drawTriangle ctx area _ _ _ h)

/-! ## Triangles -/

/-- The three weights of a pixel sum to the area (R284). -/
theorem edge_sum (ax ay bx by_ cx cy px py : Int) :
    edge bx by_ cx cy px py + edge cx cy ax ay px py + edge ax ay bx by_ px py = edge ax ay bx by_ cx cy := by
  unfold edge; ring

/-- What setup answers: the same three positions, with a positive area that is their edge function (R282). -/
theorem setup_spec {v0 v1 v2 : Vert} {t : Tri} (h : setup v0 v1 v2 = some t) :
    0 < t.area ∧ t.area = edge t.v0.x t.v0.y t.v1.x t.v1.y t.v2.x t.v2.y ∧ t.v0 = v0 ∧
      ((t.v1 = v1 ∧ t.v2 = v2) ∨ (t.v1 = v2 ∧ t.v2 = v1)) := by
  unfold setup at h
  dsimp only at h
  split at h
  · cases h
  · split at h
    · cases h
      refine ⟨by dsimp only; omega, ?_, rfl, .inr ⟨rfl, rfl⟩⟩
      unfold edge; ring
    · cases h
      exact ⟨by dsimp only; omega, rfl, rfl, .inl ⟨rfl, rfl⟩⟩

/-- Inclusion as the rule has it: each weight positive, or zero on a top or left edge (R285). -/
theorem Tri.inside_iff (t : Tri) (x y : Int) : t.inside x y = true ↔
    (0 < t.w0 x y ∨ (t.w0 x y = 0 ∧ topLeft t.v1.x t.v1.y t.v2.x t.v2.y = true)) ∧
    (0 < t.w1 x y ∨ (t.w1 x y = 0 ∧ topLeft t.v2.x t.v2.y t.v0.x t.v0.y = true)) ∧
    (0 < t.w2 x y ∨ (t.w2 x y = 0 ∧ topLeft t.v0.x t.v0.y t.v1.x t.v1.y = true)) := by
  simp [Tri.inside, and_assoc]

/-- The three weights of a covered pixel are not negative and sum to the area (R284, R285). -/
theorem Tri.inside_weights {t : Tri} (ha : t.area = edge t.v0.x t.v0.y t.v1.x t.v1.y t.v2.x t.v2.y) {x y : Int}
    (h : t.inside x y = true) :
    0 ≤ t.w0 x y ∧ 0 ≤ t.w1 x y ∧ 0 ≤ t.w2 x y ∧ t.w0 x y + t.w1 x y + t.w2 x y = t.area := by
  rw [Tri.inside_iff] at h
  refine ⟨by omega, by omega, by omega, ?_⟩
  · rw [ha]; exact edge_sum ..

/-- Weights that are not negative and sum to a positive area put their mean between the least and the greatest part. -/
theorem mean_bounds {a b c A x0 x1 x2 X lo hi : Int} (ha : 0 ≤ a) (hb : 0 ≤ b) (hc : 0 ≤ c) (hs : a + b + c = A)
    (hA : 0 < A) (hX : A * X = a * x0 + b * x1 + c * x2) (l0 : lo ≤ x0) (l1 : lo ≤ x1) (l2 : lo ≤ x2) (u0 : x0 ≤ hi)
    (u1 : x1 ≤ hi) (u2 : x2 ≤ hi) : lo ≤ X ∧ X ≤ hi := by
  subst hs
  constructor
  · by_contra hn
    nlinarith [mul_le_mul_of_nonneg_left l0 ha, mul_le_mul_of_nonneg_left l1 hb, mul_le_mul_of_nonneg_left l2 hc,
      mul_pos hA (show 0 < lo - X by omega)]
  · by_contra hn
    nlinarith [mul_le_mul_of_nonneg_left u0 ha, mul_le_mul_of_nonneg_left u1 hb, mul_le_mul_of_nonneg_left u2 hc,
      mul_pos hA (show 0 < X - hi by omega)]

/-- A covered pixel lies in the bounding box of its triangle (R283, R285). -/
theorem Tri.inside_box {t : Tri} (hpos : 0 < t.area) (ha : t.area = edge t.v0.x t.v0.y t.v1.x t.v1.y t.v2.x t.v2.y)
    {x y : Int} (h : t.inside x y = true) :
    min3 t.v0.x t.v1.x t.v2.x ≤ x ∧ x ≤ max3 t.v0.x t.v1.x t.v2.x ∧ min3 t.v0.y t.v1.y t.v2.y ≤ y ∧
      y ≤ max3 t.v0.y t.v1.y t.v2.y := by
  obtain ⟨h0, h1, h2, hs⟩ := Tri.inside_weights ha h
  have hx : t.area * x = t.w0 x y * t.v0.x + t.w1 x y * t.v1.x + t.w2 x y * t.v2.x := by
    rw [ha]; unfold Tri.w0 Tri.w1 Tri.w2 edge; ring
  have hy : t.area * y = t.w0 x y * t.v0.y + t.w1 x y * t.v1.y + t.w2 x y * t.v2.y := by
    rw [ha]; unfold Tri.w0 Tri.w1 Tri.w2 edge; ring
  have bx := mean_bounds (lo := min3 t.v0.x t.v1.x t.v2.x) (hi := max3 t.v0.x t.v1.x t.v2.x) h0 h1 h2 hs hpos hx
    (by unfold min3; omega) (by unfold min3; omega) (by unfold min3; omega) (by unfold max3; omega)
    (by unfold max3; omega) (by unfold max3; omega)
  have by' := mean_bounds (lo := min3 t.v0.y t.v1.y t.v2.y) (hi := max3 t.v0.y t.v1.y t.v2.y) h0 h1 h2 hs hpos hy
    (by unfold min3; omega) (by unfold min3; omega) (by unfold min3; omega) (by unfold max3; omega)
    (by unfold max3; omega) (by unfold max3; omega)
  exact ⟨bx.1, bx.2, by'.1, by'.2⟩

theorem DrawArea.maxX_lt (area : DrawArea) : area.maxX.toNat < 1024 := area.maxX.isLt

theorem DrawArea.maxY_lt (area : DrawArea) : area.maxY.toNat < 512 := area.maxY.isLt

theorem inArea_iff (area : DrawArea) (x y : Nat) :
    inArea area x y = true ↔
      area.minX.toNat ≤ x ∧ x ≤ area.maxX.toNat ∧ area.minY.toNat ≤ y ∧ y ≤ area.maxY.toNat := by
  simp [inArea, and_assoc]

/-- What a triangle does to each pixel, when each covered pixel's own drawing is `paint` (R280 to R288). -/
theorem drawTriangle_pixel (P : List (Nat × BitVec 16) → Prop) (ctx : Ctx) (area : DrawArea) (v0 v1 v2 : Vert)
    (paint : Nat → Nat → Tri → Half → Half)
    (hp : ∀ t, setup v0 v1 v2 = some t → ∀ x y : Nat, inArea area x y = true → t.inside x y = true → ∀ m, P m →
      P (t.drawPixel ctx x y m) ∧ vramRead (t.drawPixel ctx x y m) x y = paint x y t (vramRead m x y) ∧
      ∀ x' y' : Nat, x' < 1024 → y' < 512 → ¬ (x' = x ∧ y' = y) →
        vramRead (t.drawPixel ctx x y m) x' y' = vramRead m x' y')
    (m : List (Nat × BitVec 16)) (hm : P m) :
    P (drawTriangle ctx area v0 v1 v2 m) ∧ ∀ x y : Nat, x < 1024 → y < 512 →
      vramRead (drawTriangle ctx area v0 v1 v2 m) x y =
        trianglePixel area v0 v1 v2 (paint x y) x y (vramRead m x y) := by
  unfold drawTriangle trianglePixel
  cases hs : setup v0 v1 v2 with
  | none => exact ⟨hm, fun _ _ _ _ => rfl⟩
  | some t =>
    obtain ⟨hpos, ha, -, -⟩ := setup_spec hs
    have := scanBox_pixel P (fun x y v => if t.inside x y then paint x y t v else v)
      (fun x y m => if t.inside x y then t.drawPixel ctx x y m else m)
      (x0 := t.x0 area) (x1 := t.x1 area) (y0 := t.y0 area) (y1 := t.y1 area)
      (by unfold Tri.x0; omega) (by unfold Tri.y0; omega)
      (fun x y h1 h2 h3 h4 m hm => by
        have hin : inArea area x y = true := by
          rw [inArea_iff]
          unfold Tri.x0 at h1; unfold Tri.x1 at h2; unfold Tri.y0 at h3; unfold Tri.y1 at h4
          omega
        by_cases hi : t.inside x y = true
        · simp only [hi, if_true]
          exact hp t hs x y hin hi m hm
        · simp only [hi]
          exact ⟨hm, rfl, fun _ _ _ _ _ => rfl⟩) m hm
    refine ⟨this.1, fun x y hx hy => ?_⟩
    show vramRead (scanBox _ _ _ _ _ m) x y = _
    rw [this.2 x y hx hy]
    dsimp only
    by_cases hi : t.inside x y = true
    · have hb := Tri.inside_box hpos ha hi
      simp only [hi, Bool.and_true, if_true]
      refine if_congr ?_ rfl rfl
      rw [inArea_iff]
      unfold Tri.x0 Tri.x1 Tri.y0 Tri.y1
      omega
    · simp [hi]

/-- Every interpolated value of a covered pixel is an average, so it lies in 0..255 (R301, R303). -/
theorem Tri.interpolate_le {t : Tri} (hpos : 0 < t.area)
    (ha : t.area = edge t.v0.x t.v0.y t.v1.x t.v1.y t.v2.x t.v2.y) {x y : Int} (h : t.inside x y = true) (c0 c1 c2 : Byte) :
    t.interpolate x y c0 c1 c2 ≤ 255 := by
  obtain ⟨h0, h1, h2, hs⟩ := Tri.inside_weights ha h
  have b0 := c0.isLt; have b1 := c1.isLt; have b2 := c2.isLt
  unfold Tri.interpolate
  have : ((c0.toNat : Int) * t.w0 x y + (c1.toNat : Int) * t.w1 x y + (c2.toNat : Int) * t.w2 x y) / t.area ≤ 255 := by
    apply Int.ediv_le_of_le_mul hpos
    nlinarith [mul_le_mul_of_nonneg_right (show (c0.toNat : Int) ≤ 255 by omega) h0,
      mul_le_mul_of_nonneg_right (show (c1.toNat : Int) ≤ 255 by omega) h1,
      mul_le_mul_of_nonneg_right (show (c2.toNat : Int) ≤ 255 by omega) h2]
  omega

/-- Equal parts interpolate to themselves, exactly (R301). -/
theorem Tri.interpolate_flat {t : Tri} (hpos : 0 < t.area)
    (ha : t.area = edge t.v0.x t.v0.y t.v1.x t.v1.y t.v2.x t.v2.y) (x y : Int) (c : Byte) :
    t.interpolate x y c c c = c.toNat := by
  have hs : t.w0 x y + t.w1 x y + t.w2 x y = t.area := by rw [ha]; exact edge_sum ..
  unfold Tri.interpolate
  rw [← mul_add, ← mul_add, hs, Int.mul_ediv_cancel _ (by omega)]
  rfl

end Sys2Proof.Machine
end

