-- ==== Sys2Proof/Laws/Encoding.lean ====
section
/-! SUPPORT. The laws of the encoding formats: each format's fields come back from the word it builds. -/

namespace Sys2Proof

/-! ## Parts of an appended word -/

theorem extract_low {n m : Nat} (a : BitVec n) (b : BitVec m) : (a ++ b).extractLsb' 0 m = b := by
  apply BitVec.eq_of_getLsbD_eq
  intro i hi
  simp [BitVec.getLsbD_append, hi]

theorem extract_high {n m : Nat} (a : BitVec n) (b : BitVec m) : (a ++ b).extractLsb' m n = a := by
  apply BitVec.eq_of_getLsbD_eq
  intro i hi
  simp [BitVec.getLsbD_append, hi]

/-- A field that lies above the low part is a field of the high part. -/
theorem extract_above {n m : Nat} (a : BitVec n) (b : BitVec m) {p : Nat} (l : Nat) (h : m ≤ p) :
    (a ++ b).extractLsb' p l = a.extractLsb' (p - m) l := by
  apply BitVec.eq_of_getLsbD_eq
  intro i hi
  have h1 : ¬ p + i < m := by omega
  have h2 : p + i - m = p - m + i := by omega
  simp only [BitVec.getLsbD_extractLsb', BitVec.getLsbD_append, hi, decide_true, Bool.true_and, h1, if_false, h2]

/-! ## The formats -/

@[simp] theorem opOf_toWord (c : Color) (op : BitVec 8) : opOf (c.toWord op) = op := by
  unfold opOf Color.toWord
  rw [extract_above _ _ _ (by decide), extract_above _ _ _ (by decide)]
  exact extract_high ..

@[simp] theorem Color.ofWord_toWord (c : Color) (op : BitVec 8) : Color.ofWord (c.toWord op) = c := by
  obtain ⟨r, g, b⟩ := c
  unfold Color.ofWord Color.toWord
  congr 1
  · exact extract_low ..
  · rw [extract_above _ _ _ (by decide)]; exact extract_low ..
  · rw [extract_above _ _ _ (by decide), extract_above _ _ _ (by decide)]; exact extract_low ..

@[simp] theorem Vertex.ofWord_toWord (v : Vertex) : Vertex.ofWord v.toWord = v := by
  obtain ⟨x, y⟩ := v
  unfold Vertex.ofWord Vertex.toWord
  rw [extract_low, extract_above _ _ _ (by decide), extract_above _ _ _ (by decide)]
  simp only [Nat.sub_self, Nat.reduceSub]
  rw [extract_low]

@[simp] theorem Uv.ofWord_toWord (t : Uv) : Uv.ofWord t.toWord = t := by
  obtain ⟨u, v⟩ := t
  unfold Uv.ofWord Uv.toWord
  rw [extract_low, extract_above _ _ _ (by decide)]
  simp only [Nat.sub_self]
  rw [extract_low]

@[simp] theorem Uv.ofWord_withPalette (t : Uv) (p : Palette) : Uv.ofWord (t.withPalette p) = t := by
  obtain ⟨u, v⟩ := t
  unfold Uv.ofWord Uv.withPalette
  rw [extract_low, extract_above _ _ _ (by decide)]
  simp only [Nat.sub_self]
  rw [extract_low]

@[simp] theorem Palette.ofWord_withPalette (t : Uv) (p : Palette) : Palette.ofWord (t.withPalette p) = p := by
  obtain ⟨px, py⟩ := p
  unfold Palette.ofWord Uv.withPalette
  congr 1
  · rw [extract_above _ _ _ (by decide), extract_above _ _ _ (by decide)]; exact extract_low ..
  · rw [extract_above _ _ _ (by decide), extract_above _ _ _ (by decide), extract_above _ _ _ (by decide)]; exact extract_low ..

@[simp] theorem Uv.ofWord_withPage (t : Uv) (g : TexPage) : Uv.ofWord (t.withPage g) = t := by
  obtain ⟨u, v⟩ := t
  unfold Uv.ofWord Uv.withPage
  rw [extract_low, extract_above _ _ _ (by decide)]
  simp only [Nat.sub_self]
  rw [extract_low]

@[simp] theorem TexPage.ofWord_withPage (t : Uv) (g : TexPage) : TexPage.ofWord (t.withPage g) = g := by
  obtain ⟨x, y, d⟩ := g
  unfold TexPage.ofWord Uv.withPage
  congr 1
  · rw [extract_above _ _ _ (by decide), extract_above _ _ _ (by decide)]; exact extract_low ..
  · rw [extract_above _ _ _ (by decide), extract_above _ _ _ (by decide), extract_above _ _ _ (by decide)]; exact extract_low ..
  · rw [extract_above _ _ _ (by decide), extract_above _ _ _ (by decide), extract_above _ _ _ (by decide), extract_above _ _ _ (by decide), extract_above _ _ _ (by decide)]; exact extract_low ..

/-! ## The packets -/

theorem TriFlat.ofWords_args (p : TriFlat) (op : BitVec 8) : TriFlat.ofWords (p.c.toWord op) p.args = some p := by
  simp [TriFlat.ofWords, TriFlat.args]

theorem TriFlatTex.ofWords_args (p : TriFlatTex) (op : BitVec 8) : TriFlatTex.ofWords (p.c.toWord op) p.args = some p := by
  simp [TriFlatTex.ofWords, TriFlatTex.args]

theorem QuadFlat.ofWords_args (p : QuadFlat) (op : BitVec 8) : QuadFlat.ofWords (p.c.toWord op) p.args = some p := by
  simp [QuadFlat.ofWords, QuadFlat.args]

theorem QuadFlatTex.ofWords_args (p : QuadFlatTex) (op : BitVec 8) :
    QuadFlatTex.ofWords (p.c.toWord op) p.args = some p := by
  simp [QuadFlatTex.ofWords, QuadFlatTex.args]

theorem TriGouraud.ofWords_args (p : TriGouraud) (op : BitVec 8) : TriGouraud.ofWords (p.c.toWord op) p.args = some p := by
  simp [TriGouraud.ofWords, TriGouraud.args]

theorem TriGouraudTex.ofWords_args (p : TriGouraudTex) (op : BitVec 8) :
    TriGouraudTex.ofWords (p.c.toWord op) p.args = some p := by
  simp [TriGouraudTex.ofWords, TriGouraudTex.args]

theorem QuadGouraud.ofWords_args (p : QuadGouraud) (op : BitVec 8) :
    QuadGouraud.ofWords (p.c.toWord op) p.args = some p := by
  simp [QuadGouraud.ofWords, QuadGouraud.args]

theorem QuadGouraudTex.ofWords_args (p : QuadGouraudTex) (op : BitVec 8) :
    QuadGouraudTex.ofWords (p.c.toWord op) p.args = some p := by
  simp [QuadGouraudTex.ofWords, QuadGouraudTex.args]

theorem RectVar.ofWords_args (p : RectVar) (op : BitVec 8) : RectVar.ofWords (p.c.toWord op) p.args = some p := by
  simp only [RectVar.ofWords, RectVar.args, Color.ofWord_toWord, Vertex.ofWord_toWord, extract_low, extract_high]

theorem RectVarTex.ofWords_args (p : RectVarTex) (op : BitVec 8) : RectVarTex.ofWords (p.c.toWord op) p.args = some p := by
  simp only [RectVarTex.ofWords, RectVarTex.args, Color.ofWord_toWord, Vertex.ofWord_toWord, Uv.ofWord_withPalette,
    Palette.ofWord_withPalette, extract_low, extract_high]

theorem RectFix.ofWords_args (p : RectFix) (op : BitVec 8) : RectFix.ofWords (p.c.toWord op) p.args = some p := by
  simp [RectFix.ofWords, RectFix.args]

theorem RectFixTex.ofWords_args (p : RectFixTex) (op : BitVec 8) : RectFixTex.ofWords (p.c.toWord op) p.args = some p := by
  simp [RectFixTex.ofWords, RectFixTex.args]

end Sys2Proof
end

