-- ==== Sys2Proof/Laws/State.lean ====
section
/-! SUPPORT. What each field of the state is after each named update: one lemma per field per update, true by `rfl`, and
the laws of the per-channel vector. -/

namespace Sys2Proof.Machine

/-! ## One value per channel -/

@[simp] theorem PerChan.get_set_same {α : Type} (p : PerChan α) (ch : Chan) (v : α) : (p.set ch v).get ch = v := by
  cases ch <;> rfl

theorem PerChan.get_set_other {α : Type} (p : PerChan α) {ch ch' : Chan} (v : α) (h : ch' ≠ ch) :
    (p.set ch v).get ch' = p.get ch' := by
  cases ch <;> cases ch' <;> first | rfl | exact absurd rfl h

theorem PerChan.get_set {α : Type} (p : PerChan α) (ch ch' : Chan) (v : α) :
    (p.set ch v).get ch' = if ch' = ch then v else p.get ch' := by
  by_cases h : ch' = ch
  · subst h; simp
  · simp [PerChan.get_set_other p v h, h]

@[simp] theorem PerChan.set_set {α : Type} (p : PerChan α) (ch : Chan) (v w : α) : (p.set ch v).set ch w = p.set ch w := by
  cases ch <;> rfl

@[simp] theorem PerChan.set_get {α : Type} (p : PerChan α) (ch : Chan) : p.set ch (p.get ch) = p := by
  cases ch <;> rfl

/-- Two vectors with the same values at every channel are the same. -/
theorem PerChan.ext_get {α : Type} {p q : PerChan α} (h : ∀ ch, p.get ch = q.get ch) : p = q := by
  cases p; cases q
  have h0 := h .mdecIn; have h1 := h .mdecOut; have h2 := h .gpu; have h3 := h .cdRom
  have h4 := h .spu; have h5 := h .pio; have h6 := h .otc
  simp only [PerChan.get] at h0 h1 h2 h3 h4 h5 h6
  simp [h0, h1, h2, h3, h4, h5, h6]

/-! ## `State.done` -/

@[simp] theorem State.done_ram (s : State) : s.done.ram = s.ram := rfl
@[simp] theorem State.done_vram (s : State) : s.done.vram = s.vram := rfl
@[simp] theorem State.done_chans (s : State) : s.done.chans = s.chans := rfl
@[simp] theorem State.done_dmaControl (s : State) : s.done.dmaControl = s.dmaControl := rfl
@[simp] theorem State.done_dmaInterrupt (s : State) : s.done.dmaInterrupt = s.dmaInterrupt := rfl
@[simp] theorem State.done_drawArea (s : State) : s.done.drawArea = s.drawArea := rfl
@[simp] theorem State.done_drawOffset (s : State) : s.done.drawOffset = s.drawOffset := rfl
@[simp] theorem State.done_semiOp (s : State) : s.done.semiOp = s.semiOp := rfl
@[simp] theorem State.done_texPage (s : State) : s.done.texPage = s.texPage := rfl
@[simp] theorem State.done_gp0Buf (s : State) : s.done.gp0Buf = s.gp0Buf := rfl
@[simp] theorem State.done_listAddr (s : State) : s.done.listAddr = s.listAddr := rfl
@[simp] theorem State.done_pending (s : State) : s.done.pending = s.pending := rfl
@[simp] theorem State.done_result (s : State) : s.done.result = .done := rfl
@[simp] theorem State.done_irqEvents (s : State) : s.done.irqEvents = s.irqEvents := rfl
@[simp] theorem State.done_devOut (s : State) : s.done.devOut = s.devOut := rfl
@[simp] theorem State.done_devIn (s : State) : s.done.devIn = s.devIn := rfl
@[simp] theorem State.done_devDraws (s : State) : s.done.devDraws = s.devDraws := rfl
@[simp] theorem State.done_streamFault (s : State) : s.done.streamFault = s.streamFault := rfl

/-! ## `State.answer` -/

@[simp] theorem State.answer_ram (s : State) (v : Word) : (s.answer v).ram = s.ram := rfl
@[simp] theorem State.answer_vram (s : State) (v : Word) : (s.answer v).vram = s.vram := rfl
@[simp] theorem State.answer_chans (s : State) (v : Word) : (s.answer v).chans = s.chans := rfl
@[simp] theorem State.answer_dmaControl (s : State) (v : Word) : (s.answer v).dmaControl = s.dmaControl := rfl
@[simp] theorem State.answer_dmaInterrupt (s : State) (v : Word) : (s.answer v).dmaInterrupt = s.dmaInterrupt := rfl
@[simp] theorem State.answer_drawArea (s : State) (v : Word) : (s.answer v).drawArea = s.drawArea := rfl
@[simp] theorem State.answer_drawOffset (s : State) (v : Word) : (s.answer v).drawOffset = s.drawOffset := rfl
@[simp] theorem State.answer_semiOp (s : State) (v : Word) : (s.answer v).semiOp = s.semiOp := rfl
@[simp] theorem State.answer_texPage (s : State) (v : Word) : (s.answer v).texPage = s.texPage := rfl
@[simp] theorem State.answer_gp0Buf (s : State) (v : Word) : (s.answer v).gp0Buf = s.gp0Buf := rfl
@[simp] theorem State.answer_listAddr (s : State) (v : Word) : (s.answer v).listAddr = s.listAddr := rfl
@[simp] theorem State.answer_pending (s : State) (v : Word) : (s.answer v).pending = s.pending := rfl
@[simp] theorem State.answer_result (s : State) (v : Word) : (s.answer v).result = .value v := rfl
@[simp] theorem State.answer_irqEvents (s : State) (v : Word) : (s.answer v).irqEvents = s.irqEvents := rfl
@[simp] theorem State.answer_devOut (s : State) (v : Word) : (s.answer v).devOut = s.devOut := rfl
@[simp] theorem State.answer_devIn (s : State) (v : Word) : (s.answer v).devIn = s.devIn := rfl
@[simp] theorem State.answer_devDraws (s : State) (v : Word) : (s.answer v).devDraws = s.devDraws := rfl
@[simp] theorem State.answer_streamFault (s : State) (v : Word) : (s.answer v).streamFault = s.streamFault := rfl

/-! ## `State.raise` -/

@[simp] theorem State.raise_ram (s : State) (e : BlockError) : (s.raise e).ram = s.ram := rfl
@[simp] theorem State.raise_vram (s : State) (e : BlockError) : (s.raise e).vram = s.vram := rfl
@[simp] theorem State.raise_chans (s : State) (e : BlockError) : (s.raise e).chans = s.chans := rfl
@[simp] theorem State.raise_dmaControl (s : State) (e : BlockError) : (s.raise e).dmaControl = s.dmaControl := rfl
@[simp] theorem State.raise_dmaInterrupt (s : State) (e : BlockError) : (s.raise e).dmaInterrupt = s.dmaInterrupt := rfl
@[simp] theorem State.raise_drawArea (s : State) (e : BlockError) : (s.raise e).drawArea = s.drawArea := rfl
@[simp] theorem State.raise_drawOffset (s : State) (e : BlockError) : (s.raise e).drawOffset = s.drawOffset := rfl
@[simp] theorem State.raise_semiOp (s : State) (e : BlockError) : (s.raise e).semiOp = s.semiOp := rfl
@[simp] theorem State.raise_texPage (s : State) (e : BlockError) : (s.raise e).texPage = s.texPage := rfl
@[simp] theorem State.raise_gp0Buf (s : State) (e : BlockError) : (s.raise e).gp0Buf = s.gp0Buf := rfl
@[simp] theorem State.raise_listAddr (s : State) (e : BlockError) : (s.raise e).listAddr = s.listAddr := rfl
@[simp] theorem State.raise_pending (s : State) (e : BlockError) : (s.raise e).pending = s.pending := rfl
@[simp] theorem State.raise_result (s : State) (e : BlockError) : (s.raise e).result = .error e := rfl
@[simp] theorem State.raise_irqEvents (s : State) (e : BlockError) : (s.raise e).irqEvents = s.irqEvents := rfl
@[simp] theorem State.raise_devOut (s : State) (e : BlockError) : (s.raise e).devOut = s.devOut := rfl
@[simp] theorem State.raise_devIn (s : State) (e : BlockError) : (s.raise e).devIn = s.devIn := rfl
@[simp] theorem State.raise_devDraws (s : State) (e : BlockError) : (s.raise e).devDraws = s.devDraws := rfl
@[simp] theorem State.raise_streamFault (s : State) (e : BlockError) : (s.raise e).streamFault = s.streamFault := rfl

/-! ## `State.markFault` -/

@[simp] theorem State.markFault_ram (s : State) (e : BlockError) : (s.markFault e).ram = s.ram := rfl
@[simp] theorem State.markFault_vram (s : State) (e : BlockError) : (s.markFault e).vram = s.vram := rfl
@[simp] theorem State.markFault_chans (s : State) (e : BlockError) : (s.markFault e).chans = s.chans := rfl
@[simp] theorem State.markFault_dmaControl (s : State) (e : BlockError) : (s.markFault e).dmaControl = s.dmaControl := rfl
@[simp] theorem State.markFault_dmaInterrupt (s : State) (e : BlockError) : (s.markFault e).dmaInterrupt = s.dmaInterrupt := rfl
@[simp] theorem State.markFault_drawArea (s : State) (e : BlockError) : (s.markFault e).drawArea = s.drawArea := rfl
@[simp] theorem State.markFault_drawOffset (s : State) (e : BlockError) : (s.markFault e).drawOffset = s.drawOffset := rfl
@[simp] theorem State.markFault_semiOp (s : State) (e : BlockError) : (s.markFault e).semiOp = s.semiOp := rfl
@[simp] theorem State.markFault_texPage (s : State) (e : BlockError) : (s.markFault e).texPage = s.texPage := rfl
@[simp] theorem State.markFault_gp0Buf (s : State) (e : BlockError) : (s.markFault e).gp0Buf = s.gp0Buf := rfl
@[simp] theorem State.markFault_listAddr (s : State) (e : BlockError) : (s.markFault e).listAddr = s.listAddr := rfl
@[simp] theorem State.markFault_pending (s : State) (e : BlockError) : (s.markFault e).pending = s.pending := rfl
@[simp] theorem State.markFault_result (s : State) (e : BlockError) : (s.markFault e).result = s.result := rfl
@[simp] theorem State.markFault_irqEvents (s : State) (e : BlockError) : (s.markFault e).irqEvents = s.irqEvents := rfl
@[simp] theorem State.markFault_devOut (s : State) (e : BlockError) : (s.markFault e).devOut = s.devOut := rfl
@[simp] theorem State.markFault_devIn (s : State) (e : BlockError) : (s.markFault e).devIn = s.devIn := rfl
@[simp] theorem State.markFault_devDraws (s : State) (e : BlockError) : (s.markFault e).devDraws = s.devDraws := rfl

/-! ## `State.setChan` -/

@[simp] theorem State.setChan_ram (s : State) (ch : Chan) (r : ChanRegs) : (s.setChan ch r).ram = s.ram := rfl
@[simp] theorem State.setChan_vram (s : State) (ch : Chan) (r : ChanRegs) : (s.setChan ch r).vram = s.vram := rfl
@[simp] theorem State.setChan_chans (s : State) (ch : Chan) (r : ChanRegs) : (s.setChan ch r).chans = s.chans.set ch r := rfl
@[simp] theorem State.setChan_dmaControl (s : State) (ch : Chan) (r : ChanRegs) : (s.setChan ch r).dmaControl = s.dmaControl := rfl
@[simp] theorem State.setChan_dmaInterrupt (s : State) (ch : Chan) (r : ChanRegs) : (s.setChan ch r).dmaInterrupt = s.dmaInterrupt := rfl
@[simp] theorem State.setChan_drawArea (s : State) (ch : Chan) (r : ChanRegs) : (s.setChan ch r).drawArea = s.drawArea := rfl
@[simp] theorem State.setChan_drawOffset (s : State) (ch : Chan) (r : ChanRegs) : (s.setChan ch r).drawOffset = s.drawOffset := rfl
@[simp] theorem State.setChan_semiOp (s : State) (ch : Chan) (r : ChanRegs) : (s.setChan ch r).semiOp = s.semiOp := rfl
@[simp] theorem State.setChan_texPage (s : State) (ch : Chan) (r : ChanRegs) : (s.setChan ch r).texPage = s.texPage := rfl
@[simp] theorem State.setChan_gp0Buf (s : State) (ch : Chan) (r : ChanRegs) : (s.setChan ch r).gp0Buf = s.gp0Buf := rfl
@[simp] theorem State.setChan_listAddr (s : State) (ch : Chan) (r : ChanRegs) : (s.setChan ch r).listAddr = s.listAddr := rfl
@[simp] theorem State.setChan_pending (s : State) (ch : Chan) (r : ChanRegs) : (s.setChan ch r).pending = s.pending := rfl
@[simp] theorem State.setChan_result (s : State) (ch : Chan) (r : ChanRegs) : (s.setChan ch r).result = s.result := rfl
@[simp] theorem State.setChan_irqEvents (s : State) (ch : Chan) (r : ChanRegs) : (s.setChan ch r).irqEvents = s.irqEvents := rfl
@[simp] theorem State.setChan_devOut (s : State) (ch : Chan) (r : ChanRegs) : (s.setChan ch r).devOut = s.devOut := rfl
@[simp] theorem State.setChan_devIn (s : State) (ch : Chan) (r : ChanRegs) : (s.setChan ch r).devIn = s.devIn := rfl
@[simp] theorem State.setChan_devDraws (s : State) (ch : Chan) (r : ChanRegs) : (s.setChan ch r).devDraws = s.devDraws := rfl
@[simp] theorem State.setChan_streamFault (s : State) (ch : Chan) (r : ChanRegs) : (s.setChan ch r).streamFault = s.streamFault := rfl

/-! ## `State.setBase` -/

@[simp] theorem State.setBase_ram (s : State) (ch : Chan) (v : BitVec 24) : (s.setBase ch v).ram = s.ram := rfl
@[simp] theorem State.setBase_vram (s : State) (ch : Chan) (v : BitVec 24) : (s.setBase ch v).vram = s.vram := rfl
@[simp] theorem State.setBase_chans (s : State) (ch : Chan) (v : BitVec 24) : (s.setBase ch v).chans = s.chans.set ch { s.chan ch with base := v } := rfl
@[simp] theorem State.setBase_dmaControl (s : State) (ch : Chan) (v : BitVec 24) : (s.setBase ch v).dmaControl = s.dmaControl := rfl
@[simp] theorem State.setBase_dmaInterrupt (s : State) (ch : Chan) (v : BitVec 24) : (s.setBase ch v).dmaInterrupt = s.dmaInterrupt := rfl
@[simp] theorem State.setBase_drawArea (s : State) (ch : Chan) (v : BitVec 24) : (s.setBase ch v).drawArea = s.drawArea := rfl
@[simp] theorem State.setBase_drawOffset (s : State) (ch : Chan) (v : BitVec 24) : (s.setBase ch v).drawOffset = s.drawOffset := rfl
@[simp] theorem State.setBase_semiOp (s : State) (ch : Chan) (v : BitVec 24) : (s.setBase ch v).semiOp = s.semiOp := rfl
@[simp] theorem State.setBase_texPage (s : State) (ch : Chan) (v : BitVec 24) : (s.setBase ch v).texPage = s.texPage := rfl
@[simp] theorem State.setBase_gp0Buf (s : State) (ch : Chan) (v : BitVec 24) : (s.setBase ch v).gp0Buf = s.gp0Buf := rfl
@[simp] theorem State.setBase_listAddr (s : State) (ch : Chan) (v : BitVec 24) : (s.setBase ch v).listAddr = s.listAddr := rfl
@[simp] theorem State.setBase_pending (s : State) (ch : Chan) (v : BitVec 24) : (s.setBase ch v).pending = s.pending := rfl
@[simp] theorem State.setBase_result (s : State) (ch : Chan) (v : BitVec 24) : (s.setBase ch v).result = s.result := rfl
@[simp] theorem State.setBase_irqEvents (s : State) (ch : Chan) (v : BitVec 24) : (s.setBase ch v).irqEvents = s.irqEvents := rfl
@[simp] theorem State.setBase_devOut (s : State) (ch : Chan) (v : BitVec 24) : (s.setBase ch v).devOut = s.devOut := rfl
@[simp] theorem State.setBase_devIn (s : State) (ch : Chan) (v : BitVec 24) : (s.setBase ch v).devIn = s.devIn := rfl
@[simp] theorem State.setBase_devDraws (s : State) (ch : Chan) (v : BitVec 24) : (s.setBase ch v).devDraws = s.devDraws := rfl
@[simp] theorem State.setBase_streamFault (s : State) (ch : Chan) (v : BitVec 24) : (s.setBase ch v).streamFault = s.streamFault := rfl

/-! ## `State.setBlock` -/

@[simp] theorem State.setBlock_ram (s : State) (ch : Chan) (v : Word) : (s.setBlock ch v).ram = s.ram := rfl
@[simp] theorem State.setBlock_vram (s : State) (ch : Chan) (v : Word) : (s.setBlock ch v).vram = s.vram := rfl
@[simp] theorem State.setBlock_chans (s : State) (ch : Chan) (v : Word) : (s.setBlock ch v).chans = s.chans.set ch { s.chan ch with block := v } := rfl
@[simp] theorem State.setBlock_dmaControl (s : State) (ch : Chan) (v : Word) : (s.setBlock ch v).dmaControl = s.dmaControl := rfl
@[simp] theorem State.setBlock_dmaInterrupt (s : State) (ch : Chan) (v : Word) : (s.setBlock ch v).dmaInterrupt = s.dmaInterrupt := rfl
@[simp] theorem State.setBlock_drawArea (s : State) (ch : Chan) (v : Word) : (s.setBlock ch v).drawArea = s.drawArea := rfl
@[simp] theorem State.setBlock_drawOffset (s : State) (ch : Chan) (v : Word) : (s.setBlock ch v).drawOffset = s.drawOffset := rfl
@[simp] theorem State.setBlock_semiOp (s : State) (ch : Chan) (v : Word) : (s.setBlock ch v).semiOp = s.semiOp := rfl
@[simp] theorem State.setBlock_texPage (s : State) (ch : Chan) (v : Word) : (s.setBlock ch v).texPage = s.texPage := rfl
@[simp] theorem State.setBlock_gp0Buf (s : State) (ch : Chan) (v : Word) : (s.setBlock ch v).gp0Buf = s.gp0Buf := rfl
@[simp] theorem State.setBlock_listAddr (s : State) (ch : Chan) (v : Word) : (s.setBlock ch v).listAddr = s.listAddr := rfl
@[simp] theorem State.setBlock_pending (s : State) (ch : Chan) (v : Word) : (s.setBlock ch v).pending = s.pending := rfl
@[simp] theorem State.setBlock_result (s : State) (ch : Chan) (v : Word) : (s.setBlock ch v).result = s.result := rfl
@[simp] theorem State.setBlock_irqEvents (s : State) (ch : Chan) (v : Word) : (s.setBlock ch v).irqEvents = s.irqEvents := rfl
@[simp] theorem State.setBlock_devOut (s : State) (ch : Chan) (v : Word) : (s.setBlock ch v).devOut = s.devOut := rfl
@[simp] theorem State.setBlock_devIn (s : State) (ch : Chan) (v : Word) : (s.setBlock ch v).devIn = s.devIn := rfl
@[simp] theorem State.setBlock_devDraws (s : State) (ch : Chan) (v : Word) : (s.setBlock ch v).devDraws = s.devDraws := rfl
@[simp] theorem State.setBlock_streamFault (s : State) (ch : Chan) (v : Word) : (s.setBlock ch v).streamFault = s.streamFault := rfl

/-! ## `State.setCtl` -/

@[simp] theorem State.setCtl_ram (s : State) (ch : Chan) (v : Word) : (s.setCtl ch v).ram = s.ram := rfl
@[simp] theorem State.setCtl_vram (s : State) (ch : Chan) (v : Word) : (s.setCtl ch v).vram = s.vram := rfl
@[simp] theorem State.setCtl_chans (s : State) (ch : Chan) (v : Word) : (s.setCtl ch v).chans = s.chans.set ch { s.chan ch with ctl := v } := rfl
@[simp] theorem State.setCtl_dmaControl (s : State) (ch : Chan) (v : Word) : (s.setCtl ch v).dmaControl = s.dmaControl := rfl
@[simp] theorem State.setCtl_dmaInterrupt (s : State) (ch : Chan) (v : Word) : (s.setCtl ch v).dmaInterrupt = s.dmaInterrupt := rfl
@[simp] theorem State.setCtl_drawArea (s : State) (ch : Chan) (v : Word) : (s.setCtl ch v).drawArea = s.drawArea := rfl
@[simp] theorem State.setCtl_drawOffset (s : State) (ch : Chan) (v : Word) : (s.setCtl ch v).drawOffset = s.drawOffset := rfl
@[simp] theorem State.setCtl_semiOp (s : State) (ch : Chan) (v : Word) : (s.setCtl ch v).semiOp = s.semiOp := rfl
@[simp] theorem State.setCtl_texPage (s : State) (ch : Chan) (v : Word) : (s.setCtl ch v).texPage = s.texPage := rfl
@[simp] theorem State.setCtl_gp0Buf (s : State) (ch : Chan) (v : Word) : (s.setCtl ch v).gp0Buf = s.gp0Buf := rfl
@[simp] theorem State.setCtl_listAddr (s : State) (ch : Chan) (v : Word) : (s.setCtl ch v).listAddr = s.listAddr := rfl
@[simp] theorem State.setCtl_pending (s : State) (ch : Chan) (v : Word) : (s.setCtl ch v).pending = s.pending := rfl
@[simp] theorem State.setCtl_result (s : State) (ch : Chan) (v : Word) : (s.setCtl ch v).result = s.result := rfl
@[simp] theorem State.setCtl_irqEvents (s : State) (ch : Chan) (v : Word) : (s.setCtl ch v).irqEvents = s.irqEvents := rfl
@[simp] theorem State.setCtl_devOut (s : State) (ch : Chan) (v : Word) : (s.setCtl ch v).devOut = s.devOut := rfl
@[simp] theorem State.setCtl_devIn (s : State) (ch : Chan) (v : Word) : (s.setCtl ch v).devIn = s.devIn := rfl
@[simp] theorem State.setCtl_devDraws (s : State) (ch : Chan) (v : Word) : (s.setCtl ch v).devDraws = s.devDraws := rfl
@[simp] theorem State.setCtl_streamFault (s : State) (ch : Chan) (v : Word) : (s.setCtl ch v).streamFault = s.streamFault := rfl

/-! ## `State.setInterrupt` -/

@[simp] theorem State.setInterrupt_ram (s : State) (i : BitVec 31) : (s.setInterrupt i).ram = s.ram := rfl
@[simp] theorem State.setInterrupt_vram (s : State) (i : BitVec 31) : (s.setInterrupt i).vram = s.vram := rfl
@[simp] theorem State.setInterrupt_chans (s : State) (i : BitVec 31) : (s.setInterrupt i).chans = s.chans := rfl
@[simp] theorem State.setInterrupt_dmaControl (s : State) (i : BitVec 31) : (s.setInterrupt i).dmaControl = s.dmaControl := rfl
@[simp] theorem State.setInterrupt_dmaInterrupt (s : State) (i : BitVec 31) : (s.setInterrupt i).dmaInterrupt = i := rfl
@[simp] theorem State.setInterrupt_drawArea (s : State) (i : BitVec 31) : (s.setInterrupt i).drawArea = s.drawArea := rfl
@[simp] theorem State.setInterrupt_drawOffset (s : State) (i : BitVec 31) : (s.setInterrupt i).drawOffset = s.drawOffset := rfl
@[simp] theorem State.setInterrupt_semiOp (s : State) (i : BitVec 31) : (s.setInterrupt i).semiOp = s.semiOp := rfl
@[simp] theorem State.setInterrupt_texPage (s : State) (i : BitVec 31) : (s.setInterrupt i).texPage = s.texPage := rfl
@[simp] theorem State.setInterrupt_gp0Buf (s : State) (i : BitVec 31) : (s.setInterrupt i).gp0Buf = s.gp0Buf := rfl
@[simp] theorem State.setInterrupt_listAddr (s : State) (i : BitVec 31) : (s.setInterrupt i).listAddr = s.listAddr := rfl
@[simp] theorem State.setInterrupt_pending (s : State) (i : BitVec 31) : (s.setInterrupt i).pending = s.pending := rfl
@[simp] theorem State.setInterrupt_result (s : State) (i : BitVec 31) : (s.setInterrupt i).result = s.result := rfl
@[simp] theorem State.setInterrupt_devOut (s : State) (i : BitVec 31) : (s.setInterrupt i).devOut = s.devOut := rfl
@[simp] theorem State.setInterrupt_devIn (s : State) (i : BitVec 31) : (s.setInterrupt i).devIn = s.devIn := rfl
@[simp] theorem State.setInterrupt_devDraws (s : State) (i : BitVec 31) : (s.setInterrupt i).devDraws = s.devDraws := rfl
@[simp] theorem State.setInterrupt_streamFault (s : State) (i : BitVec 31) : (s.setInterrupt i).streamFault = s.streamFault := rfl

/-! ## `State.setListAddr` -/

@[simp] theorem State.setListAddr_ram (s : State) (a : Word) : (s.setListAddr a).ram = s.ram := rfl
@[simp] theorem State.setListAddr_vram (s : State) (a : Word) : (s.setListAddr a).vram = s.vram := rfl
@[simp] theorem State.setListAddr_chans (s : State) (a : Word) : (s.setListAddr a).chans = s.chans := rfl
@[simp] theorem State.setListAddr_dmaControl (s : State) (a : Word) : (s.setListAddr a).dmaControl = s.dmaControl := rfl
@[simp] theorem State.setListAddr_dmaInterrupt (s : State) (a : Word) : (s.setListAddr a).dmaInterrupt = s.dmaInterrupt := rfl
@[simp] theorem State.setListAddr_drawArea (s : State) (a : Word) : (s.setListAddr a).drawArea = s.drawArea := rfl
@[simp] theorem State.setListAddr_drawOffset (s : State) (a : Word) : (s.setListAddr a).drawOffset = s.drawOffset := rfl
@[simp] theorem State.setListAddr_semiOp (s : State) (a : Word) : (s.setListAddr a).semiOp = s.semiOp := rfl
@[simp] theorem State.setListAddr_texPage (s : State) (a : Word) : (s.setListAddr a).texPage = s.texPage := rfl
@[simp] theorem State.setListAddr_gp0Buf (s : State) (a : Word) : (s.setListAddr a).gp0Buf = s.gp0Buf := rfl
@[simp] theorem State.setListAddr_listAddr (s : State) (a : Word) : (s.setListAddr a).listAddr = a := rfl
@[simp] theorem State.setListAddr_pending (s : State) (a : Word) : (s.setListAddr a).pending = s.pending := rfl
@[simp] theorem State.setListAddr_result (s : State) (a : Word) : (s.setListAddr a).result = s.result := rfl
@[simp] theorem State.setListAddr_irqEvents (s : State) (a : Word) : (s.setListAddr a).irqEvents = s.irqEvents := rfl
@[simp] theorem State.setListAddr_devOut (s : State) (a : Word) : (s.setListAddr a).devOut = s.devOut := rfl
@[simp] theorem State.setListAddr_devIn (s : State) (a : Word) : (s.setListAddr a).devIn = s.devIn := rfl
@[simp] theorem State.setListAddr_devDraws (s : State) (a : Word) : (s.setListAddr a).devDraws = s.devDraws := rfl
@[simp] theorem State.setListAddr_streamFault (s : State) (a : Word) : (s.setListAddr a).streamFault = s.streamFault := rfl

/-! ## `State.withEvent` -/

@[simp] theorem State.withEvent_ram (s : State) (e : HostEvent) : (s.withEvent e).ram = s.ram := rfl
@[simp] theorem State.withEvent_vram (s : State) (e : HostEvent) : (s.withEvent e).vram = s.vram := rfl
@[simp] theorem State.withEvent_chans (s : State) (e : HostEvent) : (s.withEvent e).chans = s.chans := rfl
@[simp] theorem State.withEvent_dmaControl (s : State) (e : HostEvent) : (s.withEvent e).dmaControl = s.dmaControl := rfl
@[simp] theorem State.withEvent_dmaInterrupt (s : State) (e : HostEvent) : (s.withEvent e).dmaInterrupt = s.dmaInterrupt := rfl
@[simp] theorem State.withEvent_drawArea (s : State) (e : HostEvent) : (s.withEvent e).drawArea = s.drawArea := rfl
@[simp] theorem State.withEvent_drawOffset (s : State) (e : HostEvent) : (s.withEvent e).drawOffset = s.drawOffset := rfl
@[simp] theorem State.withEvent_semiOp (s : State) (e : HostEvent) : (s.withEvent e).semiOp = s.semiOp := rfl
@[simp] theorem State.withEvent_texPage (s : State) (e : HostEvent) : (s.withEvent e).texPage = s.texPage := rfl
@[simp] theorem State.withEvent_gp0Buf (s : State) (e : HostEvent) : (s.withEvent e).gp0Buf = s.gp0Buf := rfl
@[simp] theorem State.withEvent_listAddr (s : State) (e : HostEvent) : (s.withEvent e).listAddr = s.listAddr := rfl
@[simp] theorem State.withEvent_pending (s : State) (e : HostEvent) : (s.withEvent e).pending = e :: s.pending := rfl
@[simp] theorem State.withEvent_result (s : State) (e : HostEvent) : (s.withEvent e).result = s.result := rfl
@[simp] theorem State.withEvent_irqEvents (s : State) (e : HostEvent) : (s.withEvent e).irqEvents = s.irqEvents := rfl
@[simp] theorem State.withEvent_devOut (s : State) (e : HostEvent) : (s.withEvent e).devOut = s.devOut := rfl
@[simp] theorem State.withEvent_devIn (s : State) (e : HostEvent) : (s.withEvent e).devIn = s.devIn := rfl
@[simp] theorem State.withEvent_devDraws (s : State) (e : HostEvent) : (s.withEvent e).devDraws = s.devDraws := rfl
@[simp] theorem State.withEvent_streamFault (s : State) (e : HostEvent) : (s.withEvent e).streamFault = s.streamFault := rfl

/-! ## `drawWith` -/

@[simp] theorem drawWith_ram (s : State) (f : List (Nat × BitVec 16) → List (Nat × BitVec 16)) : (drawWith s f).ram = s.ram := rfl
@[simp] theorem drawWith_vram (s : State) (f : List (Nat × BitVec 16) → List (Nat × BitVec 16)) : (drawWith s f).vram = f s.vram := rfl
@[simp] theorem drawWith_chans (s : State) (f : List (Nat × BitVec 16) → List (Nat × BitVec 16)) : (drawWith s f).chans = s.chans := rfl
@[simp] theorem drawWith_dmaControl (s : State) (f : List (Nat × BitVec 16) → List (Nat × BitVec 16)) : (drawWith s f).dmaControl = s.dmaControl := rfl
@[simp] theorem drawWith_dmaInterrupt (s : State) (f : List (Nat × BitVec 16) → List (Nat × BitVec 16)) : (drawWith s f).dmaInterrupt = s.dmaInterrupt := rfl
@[simp] theorem drawWith_drawArea (s : State) (f : List (Nat × BitVec 16) → List (Nat × BitVec 16)) : (drawWith s f).drawArea = s.drawArea := rfl
@[simp] theorem drawWith_drawOffset (s : State) (f : List (Nat × BitVec 16) → List (Nat × BitVec 16)) : (drawWith s f).drawOffset = s.drawOffset := rfl
@[simp] theorem drawWith_semiOp (s : State) (f : List (Nat × BitVec 16) → List (Nat × BitVec 16)) : (drawWith s f).semiOp = s.semiOp := rfl
@[simp] theorem drawWith_texPage (s : State) (f : List (Nat × BitVec 16) → List (Nat × BitVec 16)) : (drawWith s f).texPage = s.texPage := rfl
@[simp] theorem drawWith_gp0Buf (s : State) (f : List (Nat × BitVec 16) → List (Nat × BitVec 16)) : (drawWith s f).gp0Buf = s.gp0Buf := rfl
@[simp] theorem drawWith_listAddr (s : State) (f : List (Nat × BitVec 16) → List (Nat × BitVec 16)) : (drawWith s f).listAddr = s.listAddr := rfl
@[simp] theorem drawWith_pending (s : State) (f : List (Nat × BitVec 16) → List (Nat × BitVec 16)) : (drawWith s f).pending = s.pending := rfl
@[simp] theorem drawWith_result (s : State) (f : List (Nat × BitVec 16) → List (Nat × BitVec 16)) : (drawWith s f).result = .done := rfl
@[simp] theorem drawWith_irqEvents (s : State) (f : List (Nat × BitVec 16) → List (Nat × BitVec 16)) : (drawWith s f).irqEvents = s.irqEvents := rfl
@[simp] theorem drawWith_devOut (s : State) (f : List (Nat × BitVec 16) → List (Nat × BitVec 16)) : (drawWith s f).devOut = s.devOut := rfl
@[simp] theorem drawWith_devIn (s : State) (f : List (Nat × BitVec 16) → List (Nat × BitVec 16)) : (drawWith s f).devIn = s.devIn := rfl
@[simp] theorem drawWith_devDraws (s : State) (f : List (Nat × BitVec 16) → List (Nat × BitVec 16)) : (drawWith s f).devDraws = s.devDraws := rfl
@[simp] theorem drawWith_streamFault (s : State) (f : List (Nat × BitVec 16) → List (Nat × BitVec 16)) : (drawWith s f).streamFault = s.streamFault := rfl

/-! ## `queueWord` -/

@[simp] theorem queueWord_ram (w : Word) (s : State) : (queueWord w s).ram = s.ram := rfl
@[simp] theorem queueWord_vram (w : Word) (s : State) : (queueWord w s).vram = s.vram := rfl
@[simp] theorem queueWord_chans (w : Word) (s : State) : (queueWord w s).chans = s.chans := rfl
@[simp] theorem queueWord_dmaControl (w : Word) (s : State) : (queueWord w s).dmaControl = s.dmaControl := rfl
@[simp] theorem queueWord_dmaInterrupt (w : Word) (s : State) : (queueWord w s).dmaInterrupt = s.dmaInterrupt := rfl
@[simp] theorem queueWord_drawArea (w : Word) (s : State) : (queueWord w s).drawArea = s.drawArea := rfl
@[simp] theorem queueWord_drawOffset (w : Word) (s : State) : (queueWord w s).drawOffset = s.drawOffset := rfl
@[simp] theorem queueWord_semiOp (w : Word) (s : State) : (queueWord w s).semiOp = s.semiOp := rfl
@[simp] theorem queueWord_texPage (w : Word) (s : State) : (queueWord w s).texPage = s.texPage := rfl
@[simp] theorem queueWord_gp0Buf (w : Word) (s : State) : (queueWord w s).gp0Buf = s.gp0Buf ++ [w] := rfl
@[simp] theorem queueWord_listAddr (w : Word) (s : State) : (queueWord w s).listAddr = s.listAddr := rfl
@[simp] theorem queueWord_pending (w : Word) (s : State) : (queueWord w s).pending = s.pending := rfl
@[simp] theorem queueWord_result (w : Word) (s : State) : (queueWord w s).result = .done := rfl
@[simp] theorem queueWord_irqEvents (w : Word) (s : State) : (queueWord w s).irqEvents = s.irqEvents := rfl
@[simp] theorem queueWord_devOut (w : Word) (s : State) : (queueWord w s).devOut = s.devOut := rfl
@[simp] theorem queueWord_devIn (w : Word) (s : State) : (queueWord w s).devIn = s.devIn := rfl
@[simp] theorem queueWord_devDraws (w : Word) (s : State) : (queueWord w s).devDraws = s.devDraws := rfl
@[simp] theorem queueWord_streamFault (w : Word) (s : State) : (queueWord w s).streamFault = s.streamFault := rfl

/-! ## `devSend` -/

@[simp] theorem devSend_ram (ch : Chan) (w : Word) (s : State) : (devSend ch w s).ram = s.ram := rfl
@[simp] theorem devSend_vram (ch : Chan) (w : Word) (s : State) : (devSend ch w s).vram = s.vram := rfl
@[simp] theorem devSend_chans (ch : Chan) (w : Word) (s : State) : (devSend ch w s).chans = s.chans := rfl
@[simp] theorem devSend_dmaControl (ch : Chan) (w : Word) (s : State) : (devSend ch w s).dmaControl = s.dmaControl := rfl
@[simp] theorem devSend_dmaInterrupt (ch : Chan) (w : Word) (s : State) : (devSend ch w s).dmaInterrupt = s.dmaInterrupt := rfl
@[simp] theorem devSend_drawArea (ch : Chan) (w : Word) (s : State) : (devSend ch w s).drawArea = s.drawArea := rfl
@[simp] theorem devSend_drawOffset (ch : Chan) (w : Word) (s : State) : (devSend ch w s).drawOffset = s.drawOffset := rfl
@[simp] theorem devSend_semiOp (ch : Chan) (w : Word) (s : State) : (devSend ch w s).semiOp = s.semiOp := rfl
@[simp] theorem devSend_texPage (ch : Chan) (w : Word) (s : State) : (devSend ch w s).texPage = s.texPage := rfl
@[simp] theorem devSend_gp0Buf (ch : Chan) (w : Word) (s : State) : (devSend ch w s).gp0Buf = s.gp0Buf := rfl
@[simp] theorem devSend_listAddr (ch : Chan) (w : Word) (s : State) : (devSend ch w s).listAddr = s.listAddr := rfl
@[simp] theorem devSend_pending (ch : Chan) (w : Word) (s : State) : (devSend ch w s).pending = s.pending := rfl
@[simp] theorem devSend_result (ch : Chan) (w : Word) (s : State) : (devSend ch w s).result = s.result := rfl
@[simp] theorem devSend_irqEvents (ch : Chan) (w : Word) (s : State) : (devSend ch w s).irqEvents = s.irqEvents := rfl
@[simp] theorem devSend_devOut (ch : Chan) (w : Word) (s : State) : (devSend ch w s).devOut = s.devOut ++ [(ch, w)] := rfl
@[simp] theorem devSend_devIn (ch : Chan) (w : Word) (s : State) : (devSend ch w s).devIn = s.devIn := rfl
@[simp] theorem devSend_devDraws (ch : Chan) (w : Word) (s : State) : (devSend ch w s).devDraws = s.devDraws := rfl
@[simp] theorem devSend_streamFault (ch : Chan) (w : Word) (s : State) : (devSend ch w s).streamFault = s.streamFault := rfl

/-! ## Channel registers after a store -/

@[simp] theorem State.chan_setChan_same (s : State) (ch : Chan) (r : ChanRegs) : (s.setChan ch r).chan ch = r :=
  PerChan.get_set_same ..

theorem State.chan_setChan_other (s : State) {ch ch' : Chan} (r : ChanRegs) (h : ch' ≠ ch) :
    (s.setChan ch r).chan ch' = s.chan ch' := PerChan.get_set_other _ _ h

@[simp] theorem State.chan_setBase_same (s : State) (ch : Chan) (v : BitVec 24) :
    (s.setBase ch v).chan ch = { s.chan ch with base := v } := PerChan.get_set_same ..

@[simp] theorem State.chan_setBlock_same (s : State) (ch : Chan) (v : Word) :
    (s.setBlock ch v).chan ch = { s.chan ch with block := v } := PerChan.get_set_same ..

@[simp] theorem State.chan_setCtl_same (s : State) (ch : Chan) (v : Word) :
    (s.setCtl ch v).chan ch = { s.chan ch with ctl := v } := PerChan.get_set_same ..

theorem State.chan_setBase_other (s : State) {ch ch' : Chan} (v : BitVec 24) (h : ch' ≠ ch) :
    (s.setBase ch v).chan ch' = s.chan ch' := PerChan.get_set_other _ _ h

theorem State.chan_setBlock_other (s : State) {ch ch' : Chan} (v : Word) (h : ch' ≠ ch) :
    (s.setBlock ch v).chan ch' = s.chan ch' := PerChan.get_set_other _ _ h

theorem State.chan_setCtl_other (s : State) {ch ch' : Chan} (v : Word) (h : ch' ≠ ch) :
    (s.setCtl ch v).chan ch' = s.chan ch' := PerChan.get_set_other _ _ h

/-! ## The finish of a transfer -/

@[simp] theorem transferFinished_ram (ch : Chan) (s : State) : (transferFinished ch s).ram = s.ram := by
  unfold transferFinished; dsimp only; split <;> rfl

@[simp] theorem transferFinished_vram (ch : Chan) (s : State) : (transferFinished ch s).vram = s.vram := by
  unfold transferFinished; dsimp only; split <;> rfl

@[simp] theorem transferFinished_dmaControl (ch : Chan) (s : State) : (transferFinished ch s).dmaControl = s.dmaControl := by
  unfold transferFinished; dsimp only; split <;> rfl

@[simp] theorem transferFinished_drawArea (ch : Chan) (s : State) : (transferFinished ch s).drawArea = s.drawArea := by
  unfold transferFinished; dsimp only; split <;> rfl

@[simp] theorem transferFinished_drawOffset (ch : Chan) (s : State) : (transferFinished ch s).drawOffset = s.drawOffset := by
  unfold transferFinished; dsimp only; split <;> rfl

@[simp] theorem transferFinished_semiOp (ch : Chan) (s : State) : (transferFinished ch s).semiOp = s.semiOp := by
  unfold transferFinished; dsimp only; split <;> rfl

@[simp] theorem transferFinished_texPage (ch : Chan) (s : State) : (transferFinished ch s).texPage = s.texPage := by
  unfold transferFinished; dsimp only; split <;> rfl

@[simp] theorem transferFinished_gp0Buf (ch : Chan) (s : State) : (transferFinished ch s).gp0Buf = s.gp0Buf := by
  unfold transferFinished; dsimp only; split <;> rfl

@[simp] theorem transferFinished_listAddr (ch : Chan) (s : State) : (transferFinished ch s).listAddr = s.listAddr := by
  unfold transferFinished; dsimp only; split <;> rfl

@[simp] theorem transferFinished_pending (ch : Chan) (s : State) : (transferFinished ch s).pending = s.pending := by
  unfold transferFinished; dsimp only; split <;> rfl

@[simp] theorem transferFinished_devOut (ch : Chan) (s : State) : (transferFinished ch s).devOut = s.devOut := by
  unfold transferFinished; dsimp only; split <;> rfl

@[simp] theorem transferFinished_devIn (ch : Chan) (s : State) : (transferFinished ch s).devIn = s.devIn := by
  unfold transferFinished; dsimp only; split <;> rfl

@[simp] theorem transferFinished_devDraws (ch : Chan) (s : State) : (transferFinished ch s).devDraws = s.devDraws := by
  unfold transferFinished; dsimp only; split <;> rfl

@[simp] theorem transferFinished_streamFault (ch : Chan) (s : State) : (transferFinished ch s).streamFault = s.streamFault := by
  unfold transferFinished; dsimp only; split <;> rfl

/-- The outcome that stood before a finish plays no part in it. -/
theorem transferFinished_with_result (ch : Chan) (s : State) (r : AccessResult) :
    transferFinished ch { s with result := r } = transferFinished ch s := by
  by_cases h : intEnable s.dmaInterrupt ch = true
  · simp only [transferFinished, State.setCtl_dmaInterrupt, h, if_true]; rfl
  · simp only [transferFinished, State.setCtl_dmaInterrupt, h]; rfl

@[simp] theorem transferFinished_result (ch : Chan) (s : State) : (transferFinished ch s).result = .done := rfl

@[simp] theorem transferFinished_chans (ch : Chan) (s : State) :
    (transferFinished ch s).chans = s.chans.set ch { s.chan ch with ctl := ctlClearStart (s.chan ch).ctl } := by
  unfold transferFinished; dsimp only; split <;> rfl

@[simp] theorem transferFinished_dmaInterrupt (ch : Chan) (s : State) :
    (transferFinished ch s).dmaInterrupt =
      if intEnable s.dmaInterrupt ch then interruptSetFlag s.dmaInterrupt ch else s.dmaInterrupt := by
  unfold transferFinished; dsimp only; split <;> simp_all

/-- The event count after a finish: one more exactly if `master_flag` rose (R163). -/
theorem transferFinished_irqEvents (ch : Chan) (s : State) :
    (transferFinished ch s).irqEvents = s.irqEvents +
      if !masterFlag s.dmaInterrupt && masterFlag (transferFinished ch s).dmaInterrupt then 1 else 0 := by
  rw [transferFinished_dmaInterrupt]
  unfold transferFinished
  dsimp only
  split
  · rename_i h
    have h' : intEnable s.dmaInterrupt ch = true := h
    simp only [h', if_true, State.done_irqEvents, State.setInterrupt, State.setCtl_dmaInterrupt, State.setCtl_irqEvents]
    split <;> simp_all
  · rename_i h
    have h' : ¬ intEnable s.dmaInterrupt ch = true := h
    simp [h']

end Sys2Proof.Machine
end

