-- ==== Sys2Proof/Laws/Run.lean ====
section
/-! SUPPORT. One lemma per shared operation of the GP0 ingress and of the transfers that says what it can do: it answers a
next state, and which fields that state shares with the one before. -/

namespace Sys2Proof.Machine

/-! ## Outcomes -/

@[simp] theorem thenIfOk_next (s : State) (f : State → Out) :
    thenIfOk (.next s) f = if s.result.isError then .next s else f s := rfl

@[simp] theorem mapNext_next (s : State) (f : State → State) : mapNext (.next s) f = .next (f s) := rfl

/-- What a chain answers: the first operation's error, or the second operation from the first one's state. -/
theorem thenIfOk_eq_next {o : Out} {f : State → Out} {t : State} (h : thenIfOk o f = .next t) :
    ∃ u, o = .next u ∧ ((u.result.isError = true ∧ t = u) ∨ (u.result.isError = false ∧ f u = .next t)) := by
  cases o with
  | next u =>
    refine ⟨u, rfl, ?_⟩
    simp only [thenIfOk] at h
    split at h
    · rename_i he; cases h; exact .inl ⟨he, rfl⟩
    · rename_i he; exact .inr ⟨Bool.eq_false_iff.2 he, h⟩
  | fault r => cases h
  | refused r => cases h

theorem mapNext_eq_next {o : Out} {f : State → State} {t : State} (h : mapNext o f = .next t) :
    ∃ u, o = .next u ∧ t = f u := by
  cases o with
  | next u => cases h; exact ⟨u, rfl, rfl⟩
  | fault r => cases h
  | refused r => cases h

/-! ## Frames -/

theorem GpuOnly.refl (s : State) : GpuOnly s s := rfl

theorem GpuOnly.trans {s t u : State} (h1 : GpuOnly s t) (h2 : GpuOnly t u) : GpuOnly s u := by
  unfold GpuOnly at *
  rw [h1] at h2
  rw [h2]

theorem DrawsOnly.gpuOnly {s t : State} (h : DrawsOnly s t) : GpuOnly s t := by
  unfold DrawsOnly at h
  unfold GpuOnly
  rw [h]

section
variable {s t : State} (h : GpuOnly s t)
include h
theorem GpuOnly.ram : t.ram = s.ram := by rw [h]
theorem GpuOnly.chans : t.chans = s.chans := by rw [h]
theorem GpuOnly.dmaControl : t.dmaControl = s.dmaControl := by rw [h]
theorem GpuOnly.dmaInterrupt : t.dmaInterrupt = s.dmaInterrupt := by rw [h]
theorem GpuOnly.listAddr : t.listAddr = s.listAddr := by rw [h]
theorem GpuOnly.pending : t.pending = s.pending := by rw [h]
theorem GpuOnly.irqEvents : t.irqEvents = s.irqEvents := by rw [h]
theorem GpuOnly.devOut : t.devOut = s.devOut := by rw [h]
theorem GpuOnly.devIn : t.devIn = s.devIn := by rw [h]
theorem GpuOnly.devDraws : t.devDraws = s.devDraws := by rw [h]
end

/-! ## GP0 commands -/

/-- What every GP0 command does: it answers a next state, changes only what a GP0 word can reach, keeps the command buffer
and the canonical form of VRAM. -/
def CommandSpec (o : Out) (s : State) : Prop :=
  ∃ t, o = .next t ∧ GpuOnly s t ∧ t.gp0Buf = s.gp0Buf ∧ (Vram.wf s.vram = true → Vram.wf t.vram = true)

theorem polygonShaded_spec (raw semi : Bool) (c : Color) (v0 v1 v2 : Vert) (v3 : Option Vert) (s : State) :
    CommandSpec (polygonShaded raw semi c v0 v1 v2 v3 s) s :=
  ⟨_, rfl, rfl, rfl, fun h => Vram.wf_drawPolygon _ _ _ _ _ _ h⟩

theorem polygonTextured_spec (op : BitVec 8) (raw semi : Bool) (c : Color) (tex : TexInfo) (v0 v1 v2 : Vert)
    (v3 : Option Vert) (s : State) : CommandSpec (polygonTextured op raw semi c tex v0 v1 v2 v3 s) s := by
  unfold polygonTextured
  split
  · exact ⟨_, rfl, rfl, rfl, fun h => h⟩
  · exact ⟨_, rfl, rfl, rfl, fun h => Vram.wf_drawPolygon _ _ _ _ _ _ h⟩

theorem rectShaded_spec (raw semi : Bool) (c : Color) (v : Vertex) (w h : Nat) (s : State) :
    CommandSpec (rectShaded raw semi c v w h s) s :=
  ⟨_, rfl, rfl, rfl, fun hw => Vram.wf_scanBox _ _ _ _ (fun x y _ hm => Vram.wf_putPixel _ x y _ hm) hw⟩

theorem rectTextured_spec (op : BitVec 8) (raw semi : Bool) (c : Color) (v : Vertex) (t : Uv) (pal : Palette) (w h : Nat)
    (s : State) : CommandSpec (rectTextured op raw semi c v t pal w h s) s := by
  unfold rectTextured
  split
  · exact ⟨_, rfl, rfl, rfl, fun h => h⟩
  · exact ⟨_, rfl, rfl, rfl,
      fun hw => Vram.wf_scanBox _ _ _ _ (fun x y _ hm => Vram.wf_texturedPixel _ x y _ _ hm) hw⟩

theorem execCommand_spec (i : Instr) (s : State) : CommandSpec (execCommand i s) s := by
  cases i <;> first
    | exact polygonShaded_spec ..
    | exact polygonTextured_spec ..
    | exact rectShaded_spec ..
    | exact rectTextured_spec ..
    | exact ⟨_, rfl, rfl, rfl, fun h => h⟩

theorem executeWords_spec (w0 : Word) (args : List Word) (s : State) : CommandSpec (executeWords w0 args s) s := by
  unfold executeWords
  split
  · exact execCommand_spec ..
  · exact ⟨_, rfl, rfl, rfl, fun h => h⟩

/-! ## The GP0 ingress -/

theorem packetLen_pos {w : Word} {n : Nat} (h : packetLen w = .ok n) : 0 < n := by
  unfold packetLen at h
  dsimp only at h
  split at h
  · injection h with h; omega
  · injection h with h; omega
  · cases h
  · split at h
    · injection h with h; omega
    · cases h

/-- What every GP0 word does (R216): a next state, only what a GP0 word can reach, VRAM kept canonical, and the queued words
kept a proper part of one packet. -/
def PushSpec (o : Out) (s : State) : Prop :=
  ∃ t, o = .next t ∧ GpuOnly s t ∧ (Vram.wf s.vram = true → Vram.wf t.vram = true) ∧
    (bufferFramed s.gp0Buf = true → bufferFramed t.gp0Buf = true)

theorem pushGp0_spec (w : Word) (s : State) : PushSpec (pushGp0 w s) s := by
  unfold pushGp0
  split
  · rename_i hb
    split
    · obtain ⟨t, h1, h2, h3, h4⟩ := execCommand_spec (refusedCommand w) s
      exact ⟨t, h1, h2, h4, fun h => by rw [h3]; exact h⟩
    · rename_i n hn
      split
      · obtain ⟨t, h1, h2, h3, h4⟩ := executeWords_spec w [] s
        exact ⟨t, h1, h2, h4, fun h => by rw [h3]; exact h⟩
      · rename_i hne
        refine ⟨_, rfl, rfl, fun h => h, fun _ => ?_⟩
        have := packetLen_pos hn
        simp only [queueWord_gp0Buf, hb, List.nil_append, bufferFramed, hn, List.length_nil]
        exact decide_eq_true (by omega)
  · rename_i w0 args hb
    split
    · rename_i e he
      exact ⟨_, rfl, rfl, fun h => h, fun h => by simp [hb, bufferFramed, he] at h⟩
    · rename_i n hn
      split
      · obtain ⟨t, h1, h2, h3, h4⟩ := executeWords_spec w0 (args ++ [w]) { s with gp0Buf := [] }
        refine ⟨t, h1, ?_, h4, fun _ => by rw [h3]; rfl⟩
        unfold GpuOnly at *
        rw [h2]
      · rename_i hne
        refine ⟨_, rfl, rfl, fun h => h, fun h => ?_⟩
        simp only [hb, bufferFramed, hn, decide_eq_true_eq] at h
        simp only [queueWord_gp0Buf, hb, List.cons_append, bufferFramed, hn, List.length_append, List.length_cons,
          List.length_nil]
        exact decide_eq_true (by omega)

/-- Marking a fault state changes nothing else. -/
theorem markTransferFault_eq (s : State) : ∃ m, markTransferFault s = { s with streamFault := m } := by
  unfold markTransferFault
  split
  · split
    · exact ⟨_, rfl⟩
    · exact ⟨s.streamFault, rfl⟩
  all_goals exact ⟨s.streamFault, rfl⟩

theorem transferPush_spec (w : Word) (s : State) : PushSpec (transferPush w s) s := by
  obtain ⟨t, h1, h2, h3, h4⟩ := pushGp0_spec w s
  obtain ⟨m, hm⟩ := markTransferFault_eq t
  refine ⟨markTransferFault t, by unfold transferPush; rw [h1]; rfl, ?_, ?_, ?_⟩
  · rw [hm]; unfold GpuOnly at *; rw [h2]
  · rw [hm]; exact h3
  · rw [hm]; exact h4

theorem pushWords_spec (ws : List Word) (s : State) : PushSpec (pushWords ws s) s := by
  induction ws generalizing s with
  | nil => exact ⟨_, rfl, rfl, fun h => h, fun h => h⟩
  | cons w ws ih =>
    obtain ⟨t, h1, h2, h3, h4⟩ := transferPush_spec w s
    unfold pushWords
    rw [h1, thenIfOk_next]
    split
    · exact ⟨t, rfl, h2, h3, h4⟩
    · obtain ⟨u, g1, g2, g3, g4⟩ := ih t
      exact ⟨u, g1, h2.trans g2, fun h => g3 (h3 h), fun h => g4 (h4 h)⟩

/-! ## Cursors -/

/-- The next cursor is the masked next address (R185). -/
theorem nextAddr_dmaAddr (step a : Word) (hs : step.toNat % 4 = 0) : nextAddr step (dmaAddr a) = dmaAddr (a + step) := by
  apply BitVec.eq_of_toNat_eq
  simp only [nextAddr, dmaAddr_toNat, BitVec.toNat_add]
  omega

theorem stepOf_mod (ctl : Word) : (stepOf ctl).toNat % 4 = 0 := by
  unfold stepOf
  split <;> rfl

/-- Cursor number 0 is the start address (R183). -/
theorem cursor_zero (base : BitVec 24) (step : Word) : cursor base step 0 = startAddr base := by
  simp [cursor, startAddr]

/-- Each cursor leads to the next (R185). -/
theorem cursor_succ (base : BitVec 24) (step : Word) (hs : step.toNat % 4 = 0) (k : Nat) :
    nextAddr step (cursor base step k) = cursor base step (k + 1) := by
  unfold cursor
  rw [nextAddr_dmaAddr _ _ hs]
  congr 1
  rw [BitVec.add_assoc]
  congr 1
  apply BitVec.eq_of_toNat_eq
  simp only [BitVec.toNat_add, BitVec.toNat_mul, BitVec.toNat_ofNat]
  simp only [Nat.mod_mul_mod, Nat.mod_add_mod]
  ring_nf

end Sys2Proof.Machine
end

