-- ==== Sys2Proof/Laws/Transfer.lean ====
section
/-! SUPPORT. One lemma per shared operation of the transfers: what the block transfers, the Otc words, the payload of a list
header and the walk do, and what no transfer can change. -/

namespace Sys2Proof.Machine

/-! ## Stores of the DMA engine -/

/-- Two different cursors lie a word apart (R63). -/
theorem dmaAddr_apart {a b : Word} (h : dmaAddr a ≠ dmaAddr b) :
    (dmaAddr a).toNat + 4 ≤ (dmaAddr b).toNat ∨ (dmaAddr b).toNat + 4 ≤ (dmaAddr a).toNat := by
  have := dmaAddr_aligned a
  have := dmaAddr_aligned b
  have : (dmaAddr a).toNat ≠ (dmaAddr b).toNat := fun e => h (BitVec.eq_of_toNat_eq e)
  omega

theorem ramRead8_write32_outside (m : List Host.Cell) {a b : Nat} (v : Word) (h : ¬ (a ≤ b ∧ b < a + 4)) :
    ramRead8 (ramWrite32 m a v) b = ramRead8 m b := by
  rw [ramRead8_write32, if_neg (by omega), if_neg (by omega), if_neg (by omega), if_neg (by omega)]

/-! ## What the words of a transfer can change -/

/-- From `s` to `u` the words of a transfer have moved: the channels' registers, `dma_control`, `dma_interrupt`, the event
count and the events to come are as they were, and the invariant's three parts are kept. -/
def Moved (s u : State) : Prop :=
  u.chans = s.chans ∧ u.dmaControl = s.dmaControl ∧ u.dmaInterrupt = s.dmaInterrupt ∧ u.irqEvents = s.irqEvents ∧
    u.pending = s.pending ∧ (Memory.wf s.ram = true → Memory.wf u.ram = true) ∧
    (Vram.wf s.vram = true → Vram.wf u.vram = true) ∧ (bufferFramed s.gp0Buf = true → bufferFramed u.gp0Buf = true)

theorem Moved.refl (s : State) : Moved s s := ⟨rfl, rfl, rfl, rfl, rfl, id, id, id⟩

theorem Moved.trans {s t u : State} (h1 : Moved s t) (h2 : Moved t u) : Moved s u := by
  obtain ⟨a1, a2, a3, a4, a5, a6, a7, a8⟩ := h1
  obtain ⟨b1, b2, b3, b4, b5, b6, b7, b8⟩ := h2
  exact ⟨b1.trans a1, b2.trans a2, b3.trans a3, b4.trans a4, b5.trans a5, b6 ∘ a6, b7 ∘ a7, b8 ∘ a8⟩

theorem transferPush_moved (w : Word) (s : State) : ∃ t, transferPush w s = .next t ∧ GpuOnly s t ∧ Moved s t := by
  obtain ⟨t, h1, h2, h3, h4⟩ := transferPush_spec w s
  exact ⟨t, h1, h2, h2.chans, h2.dmaControl, h2.dmaInterrupt, h2.irqEvents, h2.pending, fun h => by rw [h2.ram]; exact h,
    h3, h4⟩

theorem sendToPort_moved (ch : Chan) (w : Word) (s : State) :
    ∃ t, sendToPort ch w s = .next t ∧ t.ram = s.ram ∧ t.listAddr = s.listAddr ∧ Moved s t := by
  unfold sendToPort
  split
  · obtain ⟨t, h1, h2, h3⟩ := transferPush_moved w s
    exact ⟨t, h1, h2.ram, h2.listAddr, h3⟩
  · exact ⟨_, rfl, rfl, rfl, rfl, rfl, rfl, rfl, rfl, id, id, id⟩

/-- How a transfer ends: the state that its words have reached, with the finish, with the runaway abort, or neither (an
error of a word). -/
def EndsLike (t u : State) : Prop := t = u ∨ (∃ ch, t = transferFinished ch u) ∨ t = runawayAbort u

/-- The `FromRam` arm: it ends, RAM as it was (R188, R191, R192). -/
theorem blockFromRam_spec (ch : Chan) (step : Word) (n : Nat) (addr : Word) (s : State) :
    ∃ t u, blockFromRam ch step n addr s = .next t ∧ u.ram = s.ram ∧ u.listAddr = s.listAddr ∧ Moved s u ∧
      (t = u ∨ t = transferFinished ch u) := by
  induction n generalizing addr s with
  | zero => exact ⟨_, s, rfl, rfl, rfl, Moved.refl s, .inr rfl⟩
  | succ n ih =>
    obtain ⟨u, h1, h2, hl, h3⟩ := sendToPort_moved ch (ramRead32 s.ram addr.toNat) s
    simp only [blockFromRam, h1, thenIfOk_next]
    split
    · exact ⟨u, u, rfl, h2, hl, h3, .inl rfl⟩
    · obtain ⟨t, u', g1, g2, gl, g3, g4⟩ := ih (nextAddr step addr) u
      exact ⟨t, u', g1, g2.trans h2, gl.trans hl, h3.trans g3, g4⟩

theorem receiveWord_moved (ch : Chan) (a : Word) (s : State) :
    (receiveWord ch (dmaAddr a) s).listAddr = s.listAddr ∧ Moved s (receiveWord ch (dmaAddr a) s) := by
  unfold receiveWord devRecv
  split <;> exact ⟨rfl, rfl, rfl, rfl, rfl, rfl, fun h => Memory.wf_dmaWrite a _ h, id, id⟩

/-- The `ToRam` arm: it finishes (R189). -/
theorem blockToRam_spec (ch : Chan) (step : Word) (n : Nat) (a : Word) (s : State) :
    ∃ u, blockToRam ch step n (dmaAddr a) s = transferFinished ch u ∧ u.listAddr = s.listAddr ∧ Moved s u := by
  induction n generalizing a s with
  | zero => exact ⟨s, rfl, rfl, Moved.refl s⟩
  | succ n ih =>
    obtain ⟨u, h1, hl, h2⟩ := ih (dmaAddr a + step) (receiveWord ch (dmaAddr a) s)
    obtain ⟨gl, g⟩ := receiveWord_moved ch a s
    exact ⟨u, h1, hl.trans gl, g.trans h2⟩

/-- The Otc words keep RAM in canonical form (R190). -/
theorem Memory.wf_otcWords (step : Word) (n : Nat) (a : Word) {ram : List Host.Cell} (h : Memory.wf ram = true) :
    Memory.wf (otcWords step n (dmaAddr a) ram) = true := by
  induction n generalizing a ram with
  | zero => exact h
  | succ n ih => exact ih (dmaAddr a + step) (wf_dmaWrite a _ h)

/-! ## The walk -/

theorem pushPayload_moved (addr : Word) (n k : Nat) (s : State) :
    ∃ t, pushPayload addr n k s = .next t ∧ GpuOnly s t ∧ Moved s t := by
  induction n generalizing k s with
  | zero => exact ⟨_, rfl, rfl, rfl, rfl, rfl, rfl, rfl, id, id, id⟩
  | succ n ih =>
    obtain ⟨u, h1, h2, h3⟩ := transferPush_moved (ramRead32 s.ram (payloadAddr addr k).toNat) s
    simp only [pushPayload, h1, thenIfOk_next]
    split
    · exact ⟨u, rfl, h2, h3⟩
    · obtain ⟨t, g1, g2, g3⟩ := ih (k + 1) u
      exact ⟨t, g1, h2.trans g2, h3.trans g3⟩

/-- `LL.NEXT` (R208): only its payload and the cursor. -/
theorem execLlNext_spec (size : Byte) (next : BitVec 23) (s : State) :
    ∃ t, execLlNext size next s = .next t ∧ t.ram = s.ram ∧ Moved s t := by
  obtain ⟨u, h1, h2, h3⟩ := pushPayload_moved s.listAddr size.toNat 1 s
  simp only [execLlNext, h1, thenIfOk_next]
  split
  · exact ⟨u, rfl, h2.ram, h3⟩
  · exact ⟨_, rfl, h2.ram, h3⟩

/-- `LL.END` (R209): its payload, and the finish unless a word of it raised an error. -/
theorem execLlEnd_spec (size : Byte) (next : BitVec 23) (s : State) :
    ∃ t u, execLlEnd size next s = .next t ∧ u.ram = s.ram ∧ Moved s u ∧ (t = u ∨ t = transferFinished .gpu u) := by
  obtain ⟨u, h1, h2, h3⟩ := pushPayload_moved s.listAddr size.toNat 1 s
  simp only [execLlEnd, h1, thenIfOk_next]
  split
  · exact ⟨u, u, rfl, h2.ram, h3, .inl rfl⟩
  · exact ⟨_, u, rfl, h2.ram, h3, .inr rfl⟩

/-- The walk ends, whatever RAM holds (R200, R205). -/
theorem walkList_spec (cap : Nat) (s : State) :
    ∃ t u, walkList cap s = .next t ∧ u.ram = s.ram ∧ Moved s u ∧ EndsLike t u := by
  induction cap generalizing s with
  | zero => exact ⟨_, s, rfl, rfl, Moved.refl s, .inr (.inr rfl)⟩
  | succ cap ih =>
    unfold walkList
    dsimp only
    split
    · obtain ⟨t, u, h1, h2, h3, h4⟩ := execLlEnd_spec ((ramRead32 s.ram s.listAddr.toNat).extractLsb' 24 8)
        ((ramRead32 s.ram s.listAddr.toNat).extractLsb' 0 23) s
      refine ⟨t, u, h1, h2, h3, ?_⟩
      rcases h4 with h | h
      · exact .inl h
      · exact .inr (.inl ⟨_, h⟩)
    · obtain ⟨u, h1, h2, h3⟩ := execLlNext_spec ((ramRead32 s.ram s.listAddr.toNat).extractLsb' 24 8)
        ((ramRead32 s.ram s.listAddr.toNat).extractLsb' 0 23) s
      rw [h1, thenIfOk_next]
      split
      · exact ⟨u, u, rfl, h2, h3, .inl rfl⟩
      · obtain ⟨t, u', g1, g2, g3, g4⟩ := ih u
        exact ⟨t, u', g1, g2.trans h2, h3.trans g3, g4⟩

/-- `do_linked_list` (R200): it ends and leaves no cursor. -/
theorem linkedList_spec (cap : Nat) (s : State) :
    ∃ t u, linkedList cap s = .next (t.setListAddr 0) ∧ u.ram = s.ram ∧ Moved s u ∧ EndsLike t u := by
  obtain ⟨t, u, h1, h2, h3, h4⟩ := walkList_spec cap (s.setListAddr (startAddr (s.chan .gpu).base))
  exact ⟨t, u, by unfold linkedList; rw [h1]; rfl, h2, h3, h4⟩

/-! ## Every transfer, and the trigger -/

/-- What every transfer does (R180, R191): it answers a next state; its words have moved (`u`), it has ended one of the three
ways (`t`), and the walker's cursor is as it was or 0. -/
def TransferSpec (o : Out) (s : State) : Prop :=
  ∃ t u a, o = .next (t.setListAddr a) ∧ Moved s u ∧ EndsLike t u ∧ (a = s.listAddr ∨ a = 0)

theorem setListAddr_self (s : State) {a : Word} (h : s.listAddr = a) : s.setListAddr a = s := by
  subst h; rfl

theorem transferFinished_setListAddr (ch : Chan) (s : State) : (transferFinished ch s).listAddr = s.listAddr := by
  simp

/-- The state that the Otc words have reached (R190). -/
def otcState (ctl : Word) (s : State) : State :=
  { s with
    ram := otcWords (stepOf ctl) (wordCount ctl (s.chan .otc).block) (startAddr (s.chan .otc).base) s.ram }

/-- The five transfer instructions are transfers. -/
theorem execXfer_spec (s : State) :
    (∀ ch ctl, TransferSpec (execXferBlockFromram ch ctl s) s) ∧ (∀ ch ctl, TransferSpec (execXferBlockToram ch ctl s) s) ∧
    (∀ ctl, TransferSpec (execXferBlockOtc ctl s) s) ∧ (∀ ctl, TransferSpec (execXferList ctl s) s) ∧
    (∀ ch ctl, TransferSpec (execXferInvalid ch ctl s) s) := by
  refine ⟨fun ch ctl => ?_, fun ch ctl => ?_, fun ctl => ?_, fun ctl => ?_, fun ch ctl => ?_⟩
  · obtain ⟨t, u, h1, -, hl, h2, h3⟩ := blockFromRam_spec ch (stepOf ctl) (wordCount ctl (s.chan ch).block)
      (startAddr (s.chan ch).base) s
    refine ⟨t, u, s.listAddr, ?_, h2, h3.imp_right fun h => .inl ⟨ch, h⟩, .inl rfl⟩
    rw [setListAddr_self]
    · exact h1
    · rcases h3 with rfl | rfl
      · exact hl
      · simpa using hl
  · obtain ⟨u, h1, hl, h2⟩ := blockToRam_spec ch (stepOf ctl) (wordCount ctl (s.chan ch).block)
      ((s.chan ch).base.setWidth 32) s
    refine ⟨transferFinished ch u, u, s.listAddr, ?_, h2, .inr (.inl ⟨ch, rfl⟩), .inl rfl⟩
    rw [setListAddr_self _ (by simpa using hl)]
    exact congrArg Host.Outcome.next h1
  · refine ⟨_, otcState ctl s, s.listAddr, ?_, ?_, .inr (.inl ⟨.otc, rfl⟩), .inl rfl⟩
    · rw [setListAddr_self _ (by simp [otcState])]
      rfl
    · exact ⟨rfl, rfl, rfl, rfl, rfl, fun h => Memory.wf_otcWords _ _ _ h, id, id⟩
  · obtain ⟨t, u, h1, -, h2, h3⟩ := linkedList_spec Config.llCap s
    exact ⟨t, u, 0, h1, h2, h3, .inr rfl⟩
  · exact ⟨s.raise (.invalidSyncMode ch), s.raise (.invalidSyncMode ch), s.listAddr, rfl, ⟨rfl, rfl, rfl, rfl, rfl, id, id, id⟩, .inl rfl, .inl rfl⟩

/-- `do_transfer` is one of the five (R180). -/
theorem doTransfer_spec (ch : Chan) (s : State) : TransferSpec (doTransfer ch s) s := by
  obtain ⟨h1, h2, h3, h4, h5⟩ := execXfer_spec s
  unfold doTransfer
  dsimp only
  split
  · exact h1 ..
  · exact h2 ..
  · exact h3 _
  · exact h4 _
  · exact h5 ..

/-- The trigger (40_dma_registers.md R162): a transfer or nothing. -/
theorem trigger_spec (ch : Chan) (s : State) : TransferSpec (trigger ch s) s := by
  unfold trigger
  split
  · exact doTransfer_spec ch s
  · exact ⟨s.done, s.done, s.listAddr, rfl, ⟨rfl, rfl, rfl, rfl, rfl, id, id, id⟩, .inl rfl, .inl rfl⟩

end Sys2Proof.Machine
end

