-- ==== Sys2Proof/Laws/Exec.lean ====
section
/-! SUPPORT. What an instruction can do, said once: every claim over all instructions is a case analysis on this. -/

namespace Sys2Proof.Machine

/-- A register write of a channel that may trigger (40_dma_registers.md R151 to R153), and the state with the value stored. -/
def StoresTo (ch : Chan) (v : Word) (s : State) (i : Instr) (f : State) : Prop :=
  (i = .dmaWrBase ch v ∧ f = s.setBase ch (v.extractLsb' 0 24)) ∨ (i = .dmaWrBlock ch v ∧ f = s.setBlock ch v) ∨
    (i = .dmaWrChctl ch v ∧ f = s.setCtl ch v)

/-- Every instruction does one of seven things: it changes only what a GP0 word can reach (a command, a word pushed, or a
read or refused access, which only answers); it stores to a channel's register and triggers; it is a transfer; it writes one
of the two global registers; it is a row of the list walk. -/
theorem exec_cases (i : Instr) (s : State) :
    (∃ t, exec i s = .next t ∧ GpuOnly s t ∧ (Vram.wf s.vram = true → Vram.wf t.vram = true) ∧
      (bufferFramed s.gp0Buf = true → bufferFramed t.gp0Buf = true)) ∨
    (∃ ch v f, StoresTo ch v s i f ∧ exec i s = trigger ch f) ∨ TransferSpec (exec i s) s ∨ (∃ v, i = .dmaWrControl v) ∨
    (∃ v, i = .dmaWrInterrupt v) ∨ (∃ size next, i = .llNext size next) ∨ (∃ size next, i = .llEnd size next) := by
  obtain ⟨h1, h2, h3, h4, h5⟩ := execXfer_spec s
  have command : ∀ i, exec i s = execCommand i s → ∃ t, exec i s = .next t ∧ GpuOnly s t ∧
      (Vram.wf s.vram = true → Vram.wf t.vram = true) ∧ (bufferFramed s.gp0Buf = true → bufferFramed t.gp0Buf = true) := by
    intro i hi
    obtain ⟨t, a, b, c, d⟩ := execCommand_spec i s
    exact ⟨t, hi.trans a, b, d, fun h => by rw [c]; exact h⟩
  cases i
  case dmaWrBase ch v => exact .inr (.inl ⟨ch, v, _, .inl ⟨rfl, rfl⟩, rfl⟩)
  case dmaWrBlock ch v => exact .inr (.inl ⟨ch, v, _, .inr (.inl ⟨rfl, rfl⟩), rfl⟩)
  case dmaWrChctl ch v => exact .inr (.inl ⟨ch, v, _, .inr (.inr ⟨rfl, rfl⟩), rfl⟩)
  case dmaWrControl v => exact .inr (.inr (.inr (.inl ⟨v, rfl⟩)))
  case dmaWrInterrupt v => exact .inr (.inr (.inr (.inr (.inl ⟨v, rfl⟩))))
  case llNext a b => exact .inr (.inr (.inr (.inr (.inr (.inl ⟨a, b, rfl⟩)))))
  case llEnd a b => exact .inr (.inr (.inr (.inr (.inr (.inr ⟨a, b, rfl⟩)))))
  case xferBlockFromram ch ctl => exact .inr (.inr (.inl (h1 ch ctl)))
  case xferBlockToram ch ctl => exact .inr (.inr (.inl (h2 ch ctl)))
  case xferBlockOtc ctl => exact .inr (.inr (.inl (h3 ctl)))
  case xferList ctl => exact .inr (.inr (.inl (h4 ctl)))
  case xferInvalid ch ctl => exact .inr (.inr (.inl (h5 ch ctl)))
  case gp0Wr v => exact .inl (pushGp0_spec v s)
  all_goals first
    | exact .inl (command _ rfl)
    | exact .inl ⟨_, rfl, rfl, fun h => h, fun h => h⟩

/-- A refused command word is a GP0 command. -/
theorem refusedCommand_isGp0 (w0 : Word) : isGp0 (refusedCommand w0) = true := by
  unfold refusedCommand
  split <;> rfl

/-- A packet decodes to a GP0 command (30_encoding.md R120). -/
theorem commandOf_isGp0 {w0 : Word} {args : List Word} {i : Instr} (h : commandOf w0 args = some i) : isGp0 i = true := by
  unfold commandOf at h
  split at h
  all_goals first
    | (rw [Option.map_eq_some_iff] at h; obtain ⟨p, -, rfl⟩ := h; rfl)
    | (unfold oneWord at h; split at h <;> cases h; rfl)
    | (cases h; exact refusedCommand_isGp0 _)

/-- `Execute` gives a GP0 command the meaning that `exec` gives it (43_gp0_ingress.md R218). -/
theorem exec_gp0 {i : Instr} (h : isGp0 i = true) (s : State) : exec i s = execCommand i s := by
  cases i <;> first | rfl | cases h

/-- A transfer's end emits one event exactly if `master_flag` rose (40_dma_registers.md R163). -/
theorem EndsLike.irqEvents {t u : State} (h : EndsLike t u) : t.irqEvents = u.irqEvents + irqEdge u t := by
  rcases h with rfl | ⟨ch, rfl⟩ | rfl
  · simp [irqEdge]
  · unfold irqEdge transferFinished
    dsimp only
    split <;> simp [State.setInterrupt]
    split <;> simp_all
  · unfold irqEdge runawayAbort
    simp [State.setInterrupt]
    split <;> simp_all

end Sys2Proof.Machine
end

