-- ==== Sys2Proof/Laws/Environment.lean ====
section
/-! SUPPORT. What can change the drawing environment (10_state.md R30 to R33): by which command bytes each part of it moves,
said once for a command, a GP0 word, a transfer and an instruction. -/

namespace Sys2Proof.Machine

/-- From `s` to `t` each part of the drawing environment has changed only if one of the command bytes of that part has been
brought (48_line_env.md R378 to R381). -/
def EnvMoved (brought : BitVec 8 → Prop) (s t : State) : Prop :=
  (t.drawArea ≠ s.drawArea → brought 0xE3#8 ∨ brought 0xE4#8) ∧ (t.drawOffset ≠ s.drawOffset → brought 0xE5#8) ∧
    (t.semiOp ≠ s.semiOp ∨ t.texPage ≠ s.texPage → brought 0xE1#8)

/-- Some aligned word of RAM is a command word with the command byte `op`. -/
def RamHolds (ram : List Host.Cell) (op : BitVec 8) : Prop := ∃ a : Word, opOf (ramRead32 ram (dmaAddr a).toNat) = op

theorem EnvMoved.of_eq {b : BitVec 8 → Prop} {s t : State} (h1 : t.drawArea = s.drawArea) (h2 : t.drawOffset = s.drawOffset)
    (h3 : t.semiOp = s.semiOp) (h4 : t.texPage = s.texPage) : EnvMoved b s t :=
  ⟨fun h => absurd h1 h, fun h => absurd h2 h, fun h => h.elim (absurd h3) (absurd h4)⟩

theorem EnvMoved.mono {b c : BitVec 8 → Prop} {s t : State} (h : EnvMoved b s t) (hb : ∀ op, b op → c op) :
    EnvMoved c s t :=
  ⟨fun g => (h.1 g).imp (hb _) (hb _), fun g => hb _ (h.2.1 g), fun g => hb _ (h.2.2 g)⟩

theorem EnvMoved.trans {b : BitVec 8 → Prop} {s t u : State} (h1 : EnvMoved b s t) (h2 : EnvMoved b t u) :
    EnvMoved b s u := by
  obtain ⟨a1, a2, a3⟩ := h1
  obtain ⟨c1, c2, c3⟩ := h2
  refine ⟨fun h => ?_, fun h => ?_, fun h => ?_⟩
  · by_cases g : t.drawArea = s.drawArea
    · exact c1 (by rwa [g])
    · exact a1 g
  · by_cases g : t.drawOffset = s.drawOffset
    · exact c2 (by rwa [g])
    · exact a2 g
  · by_cases g : t.semiOp = s.semiOp
    · by_cases g' : t.texPage = s.texPage
      · exact c3 (by rwa [g, g'])
      · exact a3 (.inr g')
    · exact a3 (.inl g)

/-- The instruction is the environment command with the command byte `op` (48_line_env.md R378 to R381). -/
def EnvCommand (i : Instr) (op : BitVec 8) : Prop :=
  (∃ page semi, i = .drawmode page semi ∧ op = 0xE1#8) ∨ (∃ x y, i = .areaTl x y ∧ op = 0xE3#8) ∨
    (∃ x y, i = .areaBr x y ∧ op = 0xE4#8) ∨ (∃ dx dy, i = .offset dx dy ∧ op = 0xE5#8)

/-- A GP0 command changes the environment only where it is the environment command of that part. -/
theorem execCommand_environment (i : Instr) (s : State) :
    ∃ t, execCommand i s = .next t ∧ EnvMoved (EnvCommand i) s t := by
  have tex : ∀ (op : BitVec 8) (raw semi : Bool) (c : Color) (tex : TexInfo) (v0 v1 v2 : Vert) (v3 : Option Vert),
      ∃ t, polygonTextured op raw semi c tex v0 v1 v2 v3 s = .next t ∧ EnvMoved (EnvCommand i) s t := by
    intro op raw semi c tex v0 v1 v2 v3
    unfold polygonTextured
    split <;> exact ⟨_, rfl, .of_eq rfl rfl rfl rfl⟩
  have rect : ∀ (op : BitVec 8) (raw semi : Bool) (c : Color) (v : Vertex) (t : Uv) (pal : Palette) (w h : Nat),
      ∃ u, rectTextured op raw semi c v t pal w h s = .next u ∧ EnvMoved (EnvCommand i) s u := by
    intro op raw semi c v t pal w h
    unfold rectTextured
    split <;> exact ⟨_, rfl, .of_eq rfl rfl rfl rfl⟩
  cases i
  case drawmode page semi =>
    exact ⟨_, rfl, fun h => absurd rfl h, fun h => absurd rfl h, fun _ => .inl ⟨page, semi, rfl, rfl⟩⟩
  case areaTl x y =>
    exact ⟨_, rfl, fun _ => .inl (.inr (.inl ⟨x, y, rfl, rfl⟩)), fun h => absurd rfl h,
      fun h => h.elim (absurd rfl) (absurd rfl)⟩
  case areaBr x y =>
    exact ⟨_, rfl, fun _ => .inr (.inr (.inr (.inl ⟨x, y, rfl, rfl⟩))), fun h => absurd rfl h,
      fun h => h.elim (absurd rfl) (absurd rfl)⟩
  case offset dx dy =>
    exact ⟨_, rfl, fun h => absurd rfl h, fun _ => .inr (.inr (.inr ⟨dx, dy, rfl, rfl⟩)),
      fun h => h.elim (absurd rfl) (absurd rfl)⟩
  all_goals first
    | exact tex ..
    | exact rect ..
    | exact ⟨_, rfl, .of_eq rfl rfl rfl rfl⟩

/-- An environment command is one word with its command byte. -/
theorem EnvCommand.encode {i : Instr} {op : BitVec 8} (h : EnvCommand i op) :
    ∃ w0, encode i = .gp0 w0 [] ∧ opOf w0 = op := by
  rcases h with ⟨_, _, rfl, rfl⟩ | ⟨_, _, rfl, rfl⟩ | ⟨_, _, rfl, rfl⟩ | ⟨_, _, rfl, rfl⟩
  all_goals
    refine ⟨_, rfl, ?_⟩
    unfold opOf
    repeat rw [extract_above _ _ _ (by omega)]
    rfl

/-- A packet decodes to an environment command only if it is one word with its command byte (30_encoding.md R120, R121). -/
theorem commandOf_envCommand {w0 : Word} {args : List Word} {i : Instr} (h : commandOf w0 args = some i) {op : BitVec 8}
    (hi : EnvCommand i op) : args = [] ∧ opOf w0 = op := by
  have byte : ∀ n : Nat, n < 256 → (opOf w0).toNat = n → opOf w0 = BitVec.ofNat 8 n := by
    intro n hn h
    apply BitVec.eq_of_toNat_eq
    simp [h, Nat.mod_eq_of_lt hn]
  unfold commandOf at h
  split at h
  case h_65 | h_66 | h_67 | h_68 =>
    unfold oneWord at h
    split at h
    · injection h with h; subst h
      rcases hi with ⟨_, _, e, rfl⟩ | ⟨_, _, e, rfl⟩ | ⟨_, _, e, rfl⟩ | ⟨_, _, e, rfl⟩ <;>
        first | (exact ⟨rfl, byte _ (by decide) ‹_›⟩) | cases e
    · cases h
  all_goals exfalso
  all_goals first
    | (rw [Option.map_eq_some_iff] at h
       obtain ⟨p, -, rfl⟩ := h
       rcases hi with ⟨_, _, e, -⟩ | ⟨_, _, e, -⟩ | ⟨_, _, e, -⟩ | ⟨_, _, e, -⟩ <;> cases e)
    | (injection h with h
       subst h
       unfold refusedCommand at hi
       split at hi <;> rcases hi with ⟨_, _, e, -⟩ | ⟨_, _, e, -⟩ | ⟨_, _, e, -⟩ | ⟨_, _, e, -⟩ <;> cases e)

/-! ## GP0 words -/

/-- A word vector changes the environment only where it is one word, the environment command of that part. -/
theorem executeWords_environment (w0 : Word) (args : List Word) (s : State) :
    ∃ t, executeWords w0 args s = .next t ∧ EnvMoved (fun op => args = [] ∧ opOf w0 = op) s t := by
  unfold executeWords decodeGp0
  cases h : commandOf w0 args with
  | none => exact ⟨_, rfl, .of_eq rfl rfl rfl rfl⟩
  | some i =>
    obtain ⟨t, h1, h2⟩ := execCommand_environment i s
    exact ⟨t, h1, h2.mono fun op => commandOf_envCommand h⟩

/-- A GP0 word changes the environment only where it is the first of its packet and the environment command of that part. -/
theorem pushGp0_environment (w : Word) (s : State) :
    ∃ t, pushGp0 w s = .next t ∧ EnvMoved (fun op => s.gp0Buf = [] ∧ opOf w = op) s t := by
  unfold pushGp0
  split
  · rename_i hb
    split
    · obtain ⟨t, h1, h2⟩ := execCommand_environment (refusedCommand w) s
      refine ⟨t, h1, h2.mono fun op hop => ?_⟩
      unfold refusedCommand at hop
      split at hop <;> rcases hop with ⟨_, _, e, -⟩ | ⟨_, _, e, -⟩ | ⟨_, _, e, -⟩ | ⟨_, _, e, -⟩ <;> cases e
    · split
      · obtain ⟨t, h1, h2⟩ := executeWords_environment w [] s
        exact ⟨t, h1, h2.mono fun op h => ⟨hb, h.2⟩⟩
      · exact ⟨_, rfl, .of_eq rfl rfl rfl rfl⟩
  · rename_i w0 args hb
    split
    · exact ⟨_, rfl, .of_eq rfl rfl rfl rfl⟩
    · split
      · obtain ⟨t, h1, h2⟩ := executeWords_environment w0 (args ++ [w]) { s with gp0Buf := [] }
        have h3 : EnvMoved (fun op => args ++ [w] = [] ∧ opOf w0 = op) s t := h2
        exact ⟨t, h1, h3.mono fun op h => absurd h.1 (by simp)⟩
      · exact ⟨_, rfl, .of_eq rfl rfl rfl rfl⟩

/-- The same of a word that a transfer pushes. -/
theorem transferPush_environment (w : Word) (s : State) :
    ∃ t, transferPush w s = .next t ∧ EnvMoved (fun op => opOf w = op) s t := by
  obtain ⟨t, h1, h2⟩ := pushGp0_environment w s
  obtain ⟨m, hm⟩ := markTransferFault_eq t
  refine ⟨markTransferFault t, by unfold transferPush; rw [h1]; rfl, ?_⟩
  rw [hm]
  exact EnvMoved.mono (t := t) h2 fun op h => h.2

/-! ## Transfers -/

/-- A finish or an abort leaves the environment. -/
theorem EndsLike.environment {b : BitVec 8 → Prop} {t u : State} (h : EndsLike t u) : EnvMoved b u t := by
  rcases h with rfl | ⟨ch, rfl⟩ | rfl
  · exact .of_eq rfl rfl rfl rfl
  · exact .of_eq (by simp) (by simp) (by simp) (by simp)
  · exact .of_eq rfl rfl rfl rfl

/-- A `FromRam` block transfer (R188) changes the environment only on the Gpu channel, by command words that RAM holds. -/
theorem blockFromRam_environment (ch : Chan) (step : Word) (n : Nat) (a : Word) (s : State) :
    ∃ t, blockFromRam ch step n (dmaAddr a) s = .next t ∧ EnvMoved (fun op => ch = .gpu ∧ RamHolds s.ram op) s t := by
  induction n generalizing a s with
  | zero => exact ⟨_, rfl, EndsLike.environment (.inr (.inl ⟨ch, rfl⟩))⟩
  | succ n ih =>
    have send : ∃ u, sendToPort ch (ramRead32 s.ram (dmaAddr a).toNat) s = .next u ∧ u.ram = s.ram ∧
        EnvMoved (fun op => ch = .gpu ∧ RamHolds s.ram op) s u := by
      obtain ⟨u, h1, h2, -⟩ := sendToPort_moved ch (ramRead32 s.ram (dmaAddr a).toNat) s
      refine ⟨u, h1, h2, ?_⟩
      unfold sendToPort at h1
      split at h1
      · rename_i hc
        obtain ⟨u', g1, g2⟩ := transferPush_environment (ramRead32 s.ram (dmaAddr a).toNat) s
        rw [g1] at h1
        cases h1
        exact g2.mono fun op h => ⟨hc, a, h⟩
      · cases h1
        exact .of_eq rfl rfl rfl rfl
    obtain ⟨u, h1, h2, h3⟩ := send
    simp only [blockFromRam, h1, thenIfOk_next]
    split
    · exact ⟨u, rfl, h3⟩
    · obtain ⟨t, g1, g2⟩ := ih (dmaAddr a + step) u
      rw [h2] at g2
      exact ⟨t, g1, h3.trans g2⟩

/-- The payload of a packet (42_dma_linked_list.md R203). -/
theorem pushPayload_environment (addr : Word) (n k : Nat) (s : State) :
    ∃ t, pushPayload addr n k s = .next t ∧ t.ram = s.ram ∧ EnvMoved (RamHolds s.ram) s t := by
  induction n generalizing k s with
  | zero => exact ⟨_, rfl, rfl, .of_eq rfl rfl rfl rfl⟩
  | succ n ih =>
    obtain ⟨u, h1, h2⟩ := transferPush_environment (ramRead32 s.ram (payloadAddr addr k).toNat) s
    obtain ⟨u', g1, g2, -⟩ := transferPush_moved (ramRead32 s.ram (payloadAddr addr k).toNat) s
    obtain rfl : u = u' := by rw [h1] at g1; cases g1; rfl
    have hu : EnvMoved (RamHolds s.ram) s u := h2.mono fun op h => ⟨_, h⟩
    simp only [pushPayload, h1, thenIfOk_next]
    split
    · exact ⟨u, rfl, g2.ram, hu⟩
    · obtain ⟨t, e1, e2, e3⟩ := ih (k + 1) u
      rw [g2.ram] at e2 e3
      exact ⟨t, e1, e2, hu.trans e3⟩

theorem execLlNext_environment (size : Byte) (next : BitVec 23) (s : State) :
    ∃ t, execLlNext size next s = .next t ∧ t.ram = s.ram ∧ EnvMoved (RamHolds s.ram) s t := by
  obtain ⟨u, h1, h2, h3⟩ := pushPayload_environment s.listAddr size.toNat 1 s
  simp only [execLlNext, h1, thenIfOk_next]
  split
  · exact ⟨u, rfl, h2, h3⟩
  · exact ⟨_, rfl, h2, h3⟩

theorem execLlEnd_environment (size : Byte) (next : BitVec 23) (s : State) :
    ∃ t, execLlEnd size next s = .next t ∧ EnvMoved (RamHolds s.ram) s t := by
  obtain ⟨u, h1, h2, h3⟩ := pushPayload_environment s.listAddr size.toNat 1 s
  simp only [execLlEnd, h1, thenIfOk_next]
  split
  · exact ⟨u, rfl, h3⟩
  · exact ⟨_, rfl, h3.trans (EndsLike.environment (.inr (.inl ⟨.gpu, rfl⟩)))⟩

/-- The walk (R200) changes the environment only by command words that RAM holds. -/
theorem walkList_environment (cap : Nat) (s : State) :
    ∃ t, walkList cap s = .next t ∧ EnvMoved (RamHolds s.ram) s t := by
  induction cap generalizing s with
  | zero => exact ⟨_, rfl, EndsLike.environment (.inr (.inr rfl))⟩
  | succ cap ih =>
    unfold walkList
    dsimp only
    split
    · exact execLlEnd_environment ..
    · obtain ⟨u, h1, h2, h3⟩ := execLlNext_environment ((ramRead32 s.ram s.listAddr.toNat).extractLsb' 24 8)
        ((ramRead32 s.ram s.listAddr.toNat).extractLsb' 0 23) s
      rw [h1, thenIfOk_next]
      split
      · exact ⟨u, rfl, h3⟩
      · obtain ⟨t, g1, g2⟩ := ih u
        rw [h2] at g2
        exact ⟨t, g1, h3.trans g2⟩

theorem linkedList_environment (cap : Nat) (s : State) :
    ∃ t, linkedList cap s = .next t ∧ EnvMoved (RamHolds s.ram) s t := by
  obtain ⟨t, h1, h2⟩ := walkList_environment cap (s.setListAddr (startAddr (s.chan .gpu).base))
  exact ⟨t.setListAddr 0, by unfold linkedList; rw [h1]; rfl, h2⟩

/-- A block transfer to RAM (R189) leaves the environment. -/
theorem blockToRam_environment {b : BitVec 8 → Prop} (ch : Chan) (step : Word) (n : Nat) (a : Word) (s : State) :
    EnvMoved b s (blockToRam ch step n a s) := by
  induction n generalizing a s with
  | zero => exact EndsLike.environment (.inr (.inl ⟨ch, rfl⟩))
  | succ n ih =>
    refine EnvMoved.trans ?_ (ih (nextAddr step a) (receiveWord ch a s))
    unfold receiveWord devRecv
    split <;> exact .of_eq rfl rfl rfl rfl

/-- The trigger (40_dma_registers.md R162) changes the environment only on the Gpu channel, by command words that RAM holds. -/
theorem trigger_environment (ch : Chan) (s : State) :
    ∃ t, trigger ch s = .next t ∧ EnvMoved (fun op => ch = .gpu ∧ RamHolds s.ram op) s t := by
  unfold trigger
  split
  · unfold doTransfer
    dsimp only
    split
    · exact blockFromRam_environment ..
    · exact ⟨_, rfl, blockToRam_environment ..⟩
    · exact ⟨_, rfl, EnvMoved.of_eq (by simp) (by simp) (by simp) (by simp)⟩
    · rename_i hx
      have hc : ch = .gpu := by
        unfold selectXfer at hx
        split at hx
        · cases hx
        · split at hx
          · rename_i h; exact h.1
          · cases hx
        · split at hx
          · cases hx
          · split at hx <;> cases hx
      obtain ⟨t, h1, h2⟩ := linkedList_environment Config.llCap s
      exact ⟨t, h1, h2.mono fun op h => ⟨hc, h⟩⟩
    · exact ⟨_, rfl, .of_eq rfl rfl rfl rfl⟩
  · exact ⟨_, rfl, .of_eq rfl rfl rfl rfl⟩

end Sys2Proof.Machine
end

