-- ==== Sys2Proof/Laws/PerInstr.lean ====
section
/-! SUPPORT. Laws made per instruction. Family `PacketLength`: the packet that an instruction encodes to has the length its
command word announces (43_gp0_ingress.md R217), and a refused command word has no arguments. -/

namespace Sys2Proof.Laws.PacketLength

/-- The number of words that `encode` gives is the one `packetLen` wants. -/
def Holds (w0 : Word) (args : List Word) : Prop :=
  match packetLen w0 with
  | .ok n => args.length + 1 = n
  | .error _ => args = []

/-- The packet of the instruction, if it has one, is as long as its command word says. -/
def Statement (i : Instr) : Prop := ∀ w0 args, encode i = .gp0 w0 args → Holds w0 args

/-- The packet of a command word with a colour, by its command byte. -/
theorem of_command {op : BitVec 8} {n : Nat} (c : Color) (args : List Word) (hn : packetLen (op ++ 0#24) = .ok n)
    (hl : args.length + 1 = n) : ∀ w0 as, Encoded.gp0 (c.toWord op) args = .gp0 w0 as → Holds w0 as := by
  rintro w0 as ⟨⟩
  have h : packetLen (c.toWord op) = .ok n := by
    have h2 : opOf (op ++ 0#24) = op := extract_high op 0#24
    unfold packetLen at hn ⊢
    rw [opOf_toWord]
    rw [h2] at hn
    exact hn
  simp only [Holds, h]
  exact hl

/-- The group of a command word, `op[7:5]`. -/
theorem group_of (w0 : Word) : (opOf w0).extractLsb' 5 3 = w0.extractLsb' 29 3 := by
  apply BitVec.eq_of_getLsbD_eq
  intro i hi
  have h : 24 + (5 + i) = 29 + i := by omega
  have h8 : 5 + i < 8 := by omega
  simp [opOf, hi, h, h8]

/-- A packet of one word: its command word is neither a polygon's nor a rectangle's. -/
theorem of_single {w : Word} (k : BitVec 3) (hw : w.extractLsb' 29 3 = k) (h1 : k ≠ 1#3) (h3 : k ≠ 3#3) :
    ∀ w0 as, Encoded.gp0 w [] = .gp0 w0 as → Holds w0 as := by
  rintro w0 as ⟨⟩
  have hk : ∀ n, k.toNat = n → k = BitVec.ofNat 3 n := fun n h => by rw [← h]; simp
  unfold Holds packetLen
  dsimp only
  rw [group_of, hw]
  split
  · rename_i heq
    split at heq
    · exact absurd (hk _ ‹_›) h1
    · exact absurd (hk _ ‹_›) h3
    · cases heq
    · split at heq <;> cases heq
      rfl
  · rfl

theorem dmaWrBase (ch : Chan) (v : Word) : Statement (.dmaWrBase ch v) := by
  rintro w0 args ⟨⟩

theorem dmaWrBlock (ch : Chan) (v : Word) : Statement (.dmaWrBlock ch v) := by
  rintro w0 args ⟨⟩

theorem dmaWrChctl (ch : Chan) (v : Word) : Statement (.dmaWrChctl ch v) := by
  rintro w0 args ⟨⟩

theorem dmaRdBase (ch : Chan) : Statement (.dmaRdBase ch) := by
  rintro w0 args ⟨⟩

theorem dmaRdBlock (ch : Chan) : Statement (.dmaRdBlock ch) := by
  rintro w0 args ⟨⟩

theorem dmaRdChctl (ch : Chan) : Statement (.dmaRdChctl ch) := by
  rintro w0 args ⟨⟩

theorem dmaWrControl (v : Word) : Statement (.dmaWrControl v) := by
  rintro w0 args ⟨⟩

theorem dmaWrInterrupt (v : Word) : Statement (.dmaWrInterrupt v) := by
  rintro w0 args ⟨⟩

theorem dmaRdControl : Statement .dmaRdControl := by
  rintro w0 args ⟨⟩

theorem dmaRdInterrupt : Statement .dmaRdInterrupt := by
  rintro w0 args ⟨⟩

theorem dmaUnmapped (seg : Segment) (off : UnmappedOffset) (op : BusOp) (v : Word) : Statement (.dmaUnmapped seg off op v) := by
  rintro w0 args ⟨⟩

theorem gp0Wr (v : Word) : Statement (.gp0Wr v) := by
  rintro w0 args ⟨⟩

theorem xferBlockFromram (ch : Chan) (ctl : Word) : Statement (.xferBlockFromram ch ctl) := by
  rintro w0 args ⟨⟩

theorem xferBlockToram (ch : Chan) (ctl : Word) : Statement (.xferBlockToram ch ctl) := by
  rintro w0 args ⟨⟩

theorem xferBlockOtc (ctl : Word) : Statement (.xferBlockOtc ctl) := by
  rintro w0 args ⟨⟩

theorem xferList (ctl : Word) : Statement (.xferList ctl) := by
  rintro w0 args ⟨⟩

theorem xferInvalid (ch : Chan) (ctl : Word) : Statement (.xferInvalid ch ctl) := by
  rintro w0 args ⟨⟩

theorem llNext (size : Byte) (next : BitVec 23) : Statement (.llNext size next) := by
  rintro w0 args ⟨⟩

theorem llEnd (size : Byte) (next : BitVec 23) : Statement (.llEnd size next) := by
  rintro w0 args ⟨⟩

theorem triF (p : TriFlat) : Statement (.triF p) :=
  of_command p.c p.args (op := 0x20#8) rfl rfl

theorem triFR (p : TriFlat) : Statement (.triFR p) :=
  of_command p.c p.args (op := 0x21#8) rfl rfl

theorem triFS (p : TriFlat) : Statement (.triFS p) :=
  of_command p.c p.args (op := 0x22#8) rfl rfl

theorem triFSR (p : TriFlat) : Statement (.triFSR p) :=
  of_command p.c p.args (op := 0x23#8) rfl rfl

theorem triFT (p : TriFlatTex) : Statement (.triFT p) :=
  of_command p.c p.args (op := 0x24#8) rfl rfl

theorem triFTR (p : TriFlatTex) : Statement (.triFTR p) :=
  of_command p.c p.args (op := 0x25#8) rfl rfl

theorem triFTS (p : TriFlatTex) : Statement (.triFTS p) :=
  of_command p.c p.args (op := 0x26#8) rfl rfl

theorem triFTSR (p : TriFlatTex) : Statement (.triFTSR p) :=
  of_command p.c p.args (op := 0x27#8) rfl rfl

theorem quadF (p : QuadFlat) : Statement (.quadF p) :=
  of_command p.c p.args (op := 0x28#8) rfl rfl

theorem quadFR (p : QuadFlat) : Statement (.quadFR p) :=
  of_command p.c p.args (op := 0x29#8) rfl rfl

theorem quadFS (p : QuadFlat) : Statement (.quadFS p) :=
  of_command p.c p.args (op := 0x2a#8) rfl rfl

theorem quadFSR (p : QuadFlat) : Statement (.quadFSR p) :=
  of_command p.c p.args (op := 0x2b#8) rfl rfl

theorem quadFT (p : QuadFlatTex) : Statement (.quadFT p) :=
  of_command p.c p.args (op := 0x2c#8) rfl rfl

theorem quadFTR (p : QuadFlatTex) : Statement (.quadFTR p) :=
  of_command p.c p.args (op := 0x2d#8) rfl rfl

theorem quadFTS (p : QuadFlatTex) : Statement (.quadFTS p) :=
  of_command p.c p.args (op := 0x2e#8) rfl rfl

theorem quadFTSR (p : QuadFlatTex) : Statement (.quadFTSR p) :=
  of_command p.c p.args (op := 0x2f#8) rfl rfl

theorem triG (p : TriGouraud) : Statement (.triG p) :=
  of_command p.c p.args (op := 0x30#8) rfl rfl

theorem triGR (p : TriGouraud) : Statement (.triGR p) :=
  of_command p.c p.args (op := 0x31#8) rfl rfl

theorem triGS (p : TriGouraud) : Statement (.triGS p) :=
  of_command p.c p.args (op := 0x32#8) rfl rfl

theorem triGSR (p : TriGouraud) : Statement (.triGSR p) :=
  of_command p.c p.args (op := 0x33#8) rfl rfl

theorem triGT (p : TriGouraudTex) : Statement (.triGT p) :=
  of_command p.c p.args (op := 0x34#8) rfl rfl

theorem triGTR (p : TriGouraudTex) : Statement (.triGTR p) :=
  of_command p.c p.args (op := 0x35#8) rfl rfl

theorem triGTS (p : TriGouraudTex) : Statement (.triGTS p) :=
  of_command p.c p.args (op := 0x36#8) rfl rfl

theorem triGTSR (p : TriGouraudTex) : Statement (.triGTSR p) :=
  of_command p.c p.args (op := 0x37#8) rfl rfl

theorem quadG (p : QuadGouraud) : Statement (.quadG p) :=
  of_command p.c p.args (op := 0x38#8) rfl rfl

theorem quadGR (p : QuadGouraud) : Statement (.quadGR p) :=
  of_command p.c p.args (op := 0x39#8) rfl rfl

theorem quadGS (p : QuadGouraud) : Statement (.quadGS p) :=
  of_command p.c p.args (op := 0x3a#8) rfl rfl

theorem quadGSR (p : QuadGouraud) : Statement (.quadGSR p) :=
  of_command p.c p.args (op := 0x3b#8) rfl rfl

theorem quadGT (p : QuadGouraudTex) : Statement (.quadGT p) :=
  of_command p.c p.args (op := 0x3c#8) rfl rfl

theorem quadGTR (p : QuadGouraudTex) : Statement (.quadGTR p) :=
  of_command p.c p.args (op := 0x3d#8) rfl rfl

theorem quadGTS (p : QuadGouraudTex) : Statement (.quadGTS p) :=
  of_command p.c p.args (op := 0x3e#8) rfl rfl

theorem quadGTSR (p : QuadGouraudTex) : Statement (.quadGTSR p) :=
  of_command p.c p.args (op := 0x3f#8) rfl rfl

theorem rectV (p : RectVar) : Statement (.rectV p) :=
  of_command p.c p.args (op := 0x60#8) rfl rfl

theorem rectVR (p : RectVar) : Statement (.rectVR p) :=
  of_command p.c p.args (op := 0x61#8) rfl rfl

theorem rectVS (p : RectVar) : Statement (.rectVS p) :=
  of_command p.c p.args (op := 0x62#8) rfl rfl

theorem rectVSR (p : RectVar) : Statement (.rectVSR p) :=
  of_command p.c p.args (op := 0x63#8) rfl rfl

theorem rectVT (p : RectVarTex) : Statement (.rectVT p) :=
  of_command p.c p.args (op := 0x64#8) rfl rfl

theorem rectVTR (p : RectVarTex) : Statement (.rectVTR p) :=
  of_command p.c p.args (op := 0x65#8) rfl rfl

theorem rectVTS (p : RectVarTex) : Statement (.rectVTS p) :=
  of_command p.c p.args (op := 0x66#8) rfl rfl

theorem rectVTSR (p : RectVarTex) : Statement (.rectVTSR p) :=
  of_command p.c p.args (op := 0x67#8) rfl rfl

theorem rect1 (p : RectFix) : Statement (.rect1 p) :=
  of_command p.c p.args (op := 0x68#8) rfl rfl

theorem rect1R (p : RectFix) : Statement (.rect1R p) :=
  of_command p.c p.args (op := 0x69#8) rfl rfl

theorem rect1S (p : RectFix) : Statement (.rect1S p) :=
  of_command p.c p.args (op := 0x6a#8) rfl rfl

theorem rect1SR (p : RectFix) : Statement (.rect1SR p) :=
  of_command p.c p.args (op := 0x6b#8) rfl rfl

theorem rect1T (p : RectFixTex) : Statement (.rect1T p) :=
  of_command p.c p.args (op := 0x6c#8) rfl rfl

theorem rect1TR (p : RectFixTex) : Statement (.rect1TR p) :=
  of_command p.c p.args (op := 0x6d#8) rfl rfl

theorem rect1TS (p : RectFixTex) : Statement (.rect1TS p) :=
  of_command p.c p.args (op := 0x6e#8) rfl rfl

theorem rect1TSR (p : RectFixTex) : Statement (.rect1TSR p) :=
  of_command p.c p.args (op := 0x6f#8) rfl rfl

theorem rect8 (p : RectFix) : Statement (.rect8 p) :=
  of_command p.c p.args (op := 0x70#8) rfl rfl

theorem rect8R (p : RectFix) : Statement (.rect8R p) :=
  of_command p.c p.args (op := 0x71#8) rfl rfl

theorem rect8S (p : RectFix) : Statement (.rect8S p) :=
  of_command p.c p.args (op := 0x72#8) rfl rfl

theorem rect8SR (p : RectFix) : Statement (.rect8SR p) :=
  of_command p.c p.args (op := 0x73#8) rfl rfl

theorem rect8T (p : RectFixTex) : Statement (.rect8T p) :=
  of_command p.c p.args (op := 0x74#8) rfl rfl

theorem rect8TR (p : RectFixTex) : Statement (.rect8TR p) :=
  of_command p.c p.args (op := 0x75#8) rfl rfl

theorem rect8TS (p : RectFixTex) : Statement (.rect8TS p) :=
  of_command p.c p.args (op := 0x76#8) rfl rfl

theorem rect8TSR (p : RectFixTex) : Statement (.rect8TSR p) :=
  of_command p.c p.args (op := 0x77#8) rfl rfl

theorem rect16 (p : RectFix) : Statement (.rect16 p) :=
  of_command p.c p.args (op := 0x78#8) rfl rfl

theorem rect16R (p : RectFix) : Statement (.rect16R p) :=
  of_command p.c p.args (op := 0x79#8) rfl rfl

theorem rect16S (p : RectFix) : Statement (.rect16S p) :=
  of_command p.c p.args (op := 0x7a#8) rfl rfl

theorem rect16SR (p : RectFix) : Statement (.rect16SR p) :=
  of_command p.c p.args (op := 0x7b#8) rfl rfl

theorem rect16T (p : RectFixTex) : Statement (.rect16T p) :=
  of_command p.c p.args (op := 0x7c#8) rfl rfl

theorem rect16TR (p : RectFixTex) : Statement (.rect16TR p) :=
  of_command p.c p.args (op := 0x7d#8) rfl rfl

theorem rect16TS (p : RectFixTex) : Statement (.rect16TS p) :=
  of_command p.c p.args (op := 0x7e#8) rfl rfl

theorem rect16TSR (p : RectFixTex) : Statement (.rect16TSR p) :=
  of_command p.c p.args (op := 0x7f#8) rfl rfl

theorem drawmode (page : TexPage) (semi : BitVec 2) : Statement (.drawmode page semi) :=
  of_single 7#3 (by rw [extract_above _ _ _ (by decide), extract_above _ _ _ (by decide), extract_above _ _ _ (by decide), extract_above _ _ _ (by decide), extract_above _ _ _ (by decide)]; rfl) (by decide) (by decide)

theorem areaTl (x : BitVec 10) (y : BitVec 9) : Statement (.areaTl x y) :=
  of_single 7#3 (by rw [extract_above _ _ _ (by decide), extract_above _ _ _ (by decide), extract_above _ _ _ (by decide)]; rfl) (by decide) (by decide)

theorem areaBr (x : BitVec 10) (y : BitVec 9) : Statement (.areaBr x y) :=
  of_single 7#3 (by rw [extract_above _ _ _ (by decide), extract_above _ _ _ (by decide), extract_above _ _ _ (by decide)]; rfl) (by decide) (by decide)

theorem offset (dx : BitVec 11) (dy : BitVec 11) : Statement (.offset dx dy) :=
  of_single 7#3 (by rw [extract_above _ _ _ (by decide), extract_above _ _ _ (by decide), extract_above _ _ _ (by decide)]; rfl) (by decide) (by decide)

theorem line (rest : BitVec 29) : Statement (.line rest) :=
  of_single 2#3 (extract_high ..) (by decide) (by decide)

theorem gp0Unknown00 (rest : BitVec 29) : Statement (.gp0Unknown00 rest) :=
  of_single 0#3 (extract_high ..) (by decide) (by decide)

theorem gp0Unknown80 (rest : BitVec 29) : Statement (.gp0Unknown80 rest) :=
  of_single 4#3 (extract_high ..) (by decide) (by decide)

theorem gp0UnknownA0 (rest : BitVec 29) : Statement (.gp0UnknownA0 rest) :=
  of_single 5#3 (extract_high ..) (by decide) (by decide)

theorem gp0UnknownC0 (rest : BitVec 29) : Statement (.gp0UnknownC0 rest) :=
  of_single 6#3 (extract_high ..) (by decide) (by decide)

theorem gp0UnknownE0 (op : BitVec 5) (arg : BitVec 24) : Statement (.gp0UnknownE0 op arg) :=
  of_single 7#3 ((extract_above _ _ _ (by decide)).trans (extract_high ..)) (by decide) (by decide)

end Sys2Proof.Laws.PacketLength
end

