-- ==== Sys2Proof/Laws/Pixel.lean ====
section
/-! SUPPORT. The laws of one pixel (46_pixel_pipeline.md): the lanes of a packed pixel, where a position lies, when a texture
sample is the same in two framebuffers, and how a scan is cut into two scans. -/

namespace Sys2Proof.Machine

/-! ## The lanes of a pixel (30_encoding.md R116) -/

/-- Lane 0 of a packed pixel. -/
theorem red5_pack (r g b : Nat) (m : Bool) : red5 (pack r g b m) = r % 32 := by
  unfold red5 pack
  rw [show (BitVec.ofBool m ++ BitVec.ofNat 5 b ++ BitVec.ofNat 5 g ++ BitVec.ofNat 5 r).extractLsb' 0 5 =
      BitVec.ofNat 5 r from ?_]
  · rw [BitVec.toNat_ofNat]
  · apply BitVec.eq_of_getLsbD_eq; intro i hi
    simp only [BitVec.getLsbD_extractLsb', BitVec.getLsbD_append]
    simp [hi]

/-- Lane 1 of a packed pixel. -/
theorem green5_pack (r g b : Nat) (m : Bool) : green5 (pack r g b m) = g % 32 := by
  unfold green5 pack
  rw [show (BitVec.ofBool m ++ BitVec.ofNat 5 b ++ BitVec.ofNat 5 g ++ BitVec.ofNat 5 r).extractLsb' 5 5 =
      BitVec.ofNat 5 g from ?_]
  · rw [BitVec.toNat_ofNat]
  · apply BitVec.eq_of_getLsbD_eq; intro i hi
    simp only [BitVec.getLsbD_extractLsb', BitVec.getLsbD_append]
    interval_cases i <;> simp

/-- Lane 2 of a packed pixel. -/
theorem blue5_pack (r g b : Nat) (m : Bool) : blue5 (pack r g b m) = b % 32 := by
  unfold blue5 pack
  rw [show (BitVec.ofBool m ++ BitVec.ofNat 5 b ++ BitVec.ofNat 5 g ++ BitVec.ofNat 5 r).extractLsb' 10 5 =
      BitVec.ofNat 5 b from ?_]
  · rw [BitVec.toNat_ofNat]
  · apply BitVec.eq_of_getLsbD_eq; intro i hi
    simp only [BitVec.getLsbD_extractLsb', BitVec.getLsbD_append]
    interval_cases i <;> simp

/-- The mask bit of a packed pixel. -/
theorem mask_pack (r g b : Nat) (m : Bool) : maskBit (pack r g b m) = m := by
  unfold maskBit pack
  rw [BitVec.getLsbD_append, BitVec.getLsbD_append, BitVec.getLsbD_append]; simp

/-- A lane is five bits wide. -/
theorem lanes_lt (p : Half) : red5 p < 32 ∧ green5 p < 32 ∧ blue5 p < 32 :=
  ⟨(p.extractLsb' 0 5).isLt, (p.extractLsb' 5 5).isLt, (p.extractLsb' 10 5).isLt⟩

/-! ## Positions -/

/-- A position with the draw offset added is a signed 11-bit value (44_polygon.md R238). -/
theorem place_bounds (v d : BitVec 11) : -1024 ≤ place v d ∧ place v d ≤ 1023 := by
  unfold place
  have h1 := BitVec.two_mul_toInt_lt (x := v + d)
  have h2 := BitVec.le_two_mul_toInt (x := v + d)
  omega

/-! ## Samples -/

/-- Two framebuffers agree outside an area. -/
def AgreeOutside (area : DrawArea) (m0 m : List (Nat × BitVec 16)) : Prop :=
  ∀ x y, x < 1024 → y < 512 → inArea area x y = false → vramRead m x y = vramRead m0 x y

theorem vramRead_mod (m : List (Nat × BitVec 16)) (x y : Nat) : vramRead m x y = vramRead m (x % 1024) (y % 512) :=
  (vramRead_wrap m x y).symm

/-- A sample is the same in two framebuffers that agree outside an area from which it reads nothing. -/
theorem sample_agree {area : DrawArea} {ctx : Ctx} {m0 m : List (Nat × BitVec 16)}
    (hr : ReadsOutside area ctx) (h : AgreeOutside area m0 m) {u v : Nat}
    (hu : u < 256) (hv : v < 256) (hrt : ctx.rt ≠ .shaded) :
    sample m ctx u v = sample m0 ctx u v := by
  obtain ⟨h1, h2⟩ := hr
  have g1 := h1 u v hu hv
  unfold sample
  have hx : ∀ n, n % 1024 < 1024 := fun n => Nat.mod_lt _ (by norm_num)
  have hy : ∀ n, n % 512 < 512 := fun n => Nat.mod_lt _ (by norm_num)
  split
  · rename_i e
    rw [e] at g1 h2
    unfold sampleP4 clut
    have := h _ _ (hx _) (hy _) g1
    rw [← vramRead_mod, ← vramRead_mod] at this
    simp only [texelColumn] at this
    rw [this]; dsimp only
    have := h _ _ (hx _) (hy _) (h2 ((vramRead m0 (baseX ctx.page + u/4) (baseY ctx.page + v)).toNat >>> (4 * (u %
        4)) % 16) (Nat.mod_lt _ (by norm_num [clutSize])))
    rw [← vramRead_mod, ← vramRead_mod] at this
    exact this
  · rename_i e
    rw [e] at g1 h2
    unfold sampleP8 clut
    have := h _ _ (hx _) (hy _) g1
    rw [← vramRead_mod, ← vramRead_mod] at this
    simp only [texelColumn] at this
    rw [this]; dsimp only
    have := h _ _ (hx _) (hy _) (h2 ((vramRead m0 (baseX ctx.page + u/2) (baseY ctx.page + v)).toNat >>> (8 * (u %
        2)) % 256) (Nat.mod_lt _ (by norm_num [clutSize])))
    rw [← vramRead_mod, ← vramRead_mod] at this
    exact this
  · rename_i e
    rw [e] at g1
    unfold sampleD16
    have := h _ _ (hx _) (hy _) g1
    rw [← vramRead_mod, ← vramRead_mod] at this
    simpa only [texelColumn] using this
  · rename_i e; exact absurd e hrt

/-- A textured triangle draws a pixel by its interpolated texel. -/
theorem Tri.drawPixel_textured {ctx : Ctx} (hrt : ctx.rt ≠ .shaded) (t : Tri) (x y : Nat) (m : List (Nat × BitVec 16)) :
    t.drawPixel ctx x y m =
    texturedPixel ctx x y (t.interpolate x y t.v0.t.u t.v1.t.u t.v2.t.u)
      (t.interpolate x y t.v0.t.v t.v1.t.v t.v2.t.v) m := by
  unfold Tri.drawPixel
  split <;> first | rfl | exact absurd ‹_› hrt

/-! ## Scans -/

/-- A range of rows or columns is its part up to `m` and then its part after `m`. -/
theorem range_split {α : Type} (lo hi m : Int) (f : Nat → α → α) (a : α) (h0 : 0 ≤ lo) (hm : 0 ≤ m) :
   forRange (rangeCount lo hi) lo.toNat f a = forRange (rangeCount (max lo (m+1)) hi) (max lo (m+1)).toNat f
       (forRange (rangeCount lo (min hi m)) lo.toNat f a) := by
  by_cases h1 : m + 1 ≤ lo
  · have e1 : rangeCount lo (min hi m) = 0 := by unfold rangeCount; omega
    have e2 : max lo (m+1) = lo := by omega
    rw [e1, e2]; rfl
  · by_cases h2 : hi ≤ m
    · have e1 : rangeCount (max lo (m+1)) hi = 0 := by unfold rangeCount; omega
      have e2 : min hi m = hi := by omega
      rw [e1, e2]; rfl
    · have e1 : rangeCount lo hi = rangeCount lo (min hi m) + rangeCount (max lo (m+1)) hi := by unfold rangeCount; omega
      have e2 : (max lo (m+1)).toNat = lo.toNat + rangeCount lo (min hi m) := by unfold rangeCount; omega
      rw [e1, e2, forRange_add]

/-- A scan is the scan of its rows up to `m` and then of its rows after `m`. -/
theorem scan_split_y (x0 x1 y0 y1 m : Int) (f : Nat → Nat → List (Nat × BitVec 16) → List (Nat × BitVec 16))
    (v : List (Nat × BitVec 16)) (h0 : 0 ≤ y0) (hm : 0 ≤ m) :
   scanBox x0 x1 y0 y1 f v = scanBox x0 x1 (max y0 (m+1)) y1 f (scanBox x0 x1 y0 (min y1 m) f v) := by
  unfold scanBox; exact range_split _ _ _ _ _ h0 hm

/-- A scan of at most one row is the scan of its columns up to `m` and then of its columns after `m`. -/
theorem scan_split_x (x0 x1 y0 y1 m : Int) (f : Nat → Nat → List (Nat × BitVec 16) → List (Nat × BitVec 16))
    (v : List (Nat × BitVec 16)) (h0 : 0 ≤ x0) (hm : 0 ≤ m) (hone : y1 ≤ y0) :
   scanBox x0 x1 y0 y1 f v = scanBox (max x0 (m+1)) x1 y0 y1 f (scanBox x0 (min x1 m) y0 y1 f v) := by
  unfold scanBox
  have : rangeCount y0 y1 = 0 ∨ rangeCount y0 y1 = 1 := by unfold rangeCount; omega
  rcases this with e | e
  · rw [e]; rfl
  · rw [e]; simp only [forRange]; exact range_split _ _ _ _ _ h0 hm

end Sys2Proof.Machine
end

