-- ==== Sys2Proof/Tests/Slice0.lean ====
section
/-! SUPPORT. The model's own tests: words written out from the spec's encodings, ill-formed terms that the check refuses,
single steps whose results the spec's examples give, and for every statement with hypotheses a witness that meets them.
Every expected value is the spec's (the rule or the vector of 95_test_vectors.md is named), none is the model's answer. -/

open Sys2Proof Sys2Proof.Machine

namespace Sys2Proof.Tests

/-! The tests are checked one after another: many at once ask for more threads than the memory limit holds. -/

set_option Elab.async false

/-! ## Helpers -/

/-- The outcome is a next state that passes a check. -/
def goes (o : Out) (check : State → Bool) : Bool :=
  match o with
  | .next t => check t
  | .fault _ => false
  | .refused _ => false

/-- The state with an event before it. -/
def on (e : HostEvent) (s : State) : Out := step { s with pending := [e] }

/-- A 32-bit host write. -/
def w32 (a v : Word) : HostEvent := .bus ⟨.write, a, .word, v⟩

/-- A 32-bit host read. -/
def r32 (a : Word) : HostEvent := .bus ⟨.read, a, .word, 0⟩

/-- A state with some pixels set. -/
def withPixels (ps : List (Nat × Nat × Half)) (s : State) : State :=
  { s with vram := ps.foldl (fun m p => vramWrite m p.1 p.2.1 p.2.2) s.vram }

/-- A state with some RAM words set. -/
def withWords (ws : List (Nat × Word)) (s : State) : State :=
  { s with ram := ws.foldl (fun m p => ramWrite32 m p.1 p.2) s.ram }

/-- The pixels hold these values. -/
def shows (ps : List (Nat × Nat × Half)) (t : State) : Bool := ps.all fun p => vramRead t.vram p.1 p.2.1 == p.2.2

/-- The RAM words hold these values. -/
def holds (ws : List (Nat × Word)) (t : State) : Bool := ws.all fun p => ramRead32 t.ram p.1 == p.2

/-- The outcome of the last access. -/
def answers (r : AccessResult) (t : State) : Bool := t.result == r

/-- The drawing area `(0, 0)` to `(7, 7)`. -/
def area8 : State := { State.reset with drawArea := ⟨0, 0, 7, 7⟩ }

/-- The Example environment of 44_polygon.md (section 1), its background written only where a test looks, its area cut to
8 by 8. -/
def exampleState : State :=
  withPixels
    ([(0, 0, 0x4210#16), (1, 0, 0x4210#16), (2, 0, 0x4210#16), (3, 0, 0x4210#16), (0, 1, 0x4210#16), (1, 1, 0x4210#16),
      (2, 1, 0x4210#16), (3, 1, 0x4210#16), (1, 2, 0x4210#16), (3, 3, 0x4210#16), (4, 0, 0x4210#16)] ++
     [(64, 0, 0x3210#16), (64, 1, 0x7654#16), (64, 2, 0xBA98#16), (64, 3, 0xFEDC#16)] ++
     [(1, 32, 0x801F#16), (2, 32, 0x03E0#16), (3, 32, 0xFC00#16), (4, 32, 0x7FFF#16), (5, 32, 0x8000#16),
      (6, 32, 0x4210#16), (7, 32, 0xC210#16)] ++
     [(8, 32, 0xA108#16), (9, 32, 0xA529#16), (10, 32, 0xA94A#16), (11, 32, 0xAD6B#16), (12, 32, 0xB18C#16),
      (13, 32, 0xB5AD#16), (14, 32, 0xB9CE#16), (15, 32, 0xBDEF#16)])
    { area8 with texPage := ⟨1, 0, 0⟩ }

/-- A packet executed in the Example environment leaves these pixels. -/
def paints (w0 : Word) (args : List Word) (ps : List (Nat × Nat × Half)) : Bool :=
  goes (on (.execute w0 args) exampleState) fun t => answers .done t && shows ps t

/-! ## One step of every drawing instruction: the Examples of 44_polygon.md and 47_rectangle.md -/

/-- R244 to R247. -/
theorem test_triF_variants :
    paints 0x204080FF#32 [0x00000000#32, 0x00000004#32, 0x00040000#32]
      [(1, 0, 0x221F#16), (4, 0, 0x4210#16)] = true ∧
    paints 0x214080FF#32 [0x00000000#32, 0x00000004#32, 0x00040000#32]
      [(1, 0, 0x221F#16), (4, 0, 0x4210#16)] = true ∧
    paints 0x224080FF#32 [0x00000000#32, 0x00000004#32, 0x00040000#32]
      [(1, 0, 0x3217#16), (4, 0, 0x4210#16)] = true ∧
    paints 0x234080FF#32 [0x00000000#32, 0x00000004#32, 0x00040000#32]
      [(1, 0, 0x3217#16), (4, 0, 0x4210#16)] = true := by decide +kernel

/-- R248 to R251. -/
theorem test_triFT_variants :
    paints 0x244080FF#32 [0x00000000#32, 0x08000000#32, 0x00000004#32, 0x00010004#32, 0x00040000#32, 0x00000400#32]
      [(1, 0, 0x801F#16), (2, 0, 0x03E0#16), (0, 1, 0x3FFF#16), (1, 1, 0x8000#16), (4, 0, 0x4210#16)] = true ∧
    paints 0x254080FF#32 [0x00000000#32, 0x08000000#32, 0x00000004#32, 0x00010004#32, 0x00040000#32, 0x00000400#32]
      [(1, 0, 0x801F#16), (2, 0, 0x03E0#16), (0, 1, 0x7FFF#16), (1, 1, 0x8000#16), (4, 0, 0x4210#16)] = true ∧
    paints 0x264080FF#32 [0x00000000#32, 0x08000000#32, 0x00000004#32, 0x00010004#32, 0x00040000#32, 0x00000400#32]
      [(1, 0, 0xA117#16), (2, 0, 0x03E0#16), (0, 1, 0x3FFF#16), (1, 1, 0xA108#16), (4, 0, 0x4210#16)] = true ∧
    paints 0x274080FF#32 [0x00000000#32, 0x08000000#32, 0x00000004#32, 0x00010004#32, 0x00040000#32, 0x00000400#32]
      [(1, 0, 0xA117#16), (2, 0, 0x03E0#16), (0, 1, 0x7FFF#16), (1, 1, 0xA108#16), (4, 0, 0x4210#16)] = true := by decide +kernel

/-- R252 to R255. -/
theorem test_quadF_variants :
    paints 0x284080FF#32 [0x00000000#32, 0x00000004#32, 0x00040000#32, 0x00040004#32]
      [(1, 0, 0x221F#16), (3, 3, 0x221F#16), (4, 0, 0x4210#16)] = true ∧
    paints 0x294080FF#32 [0x00000000#32, 0x00000004#32, 0x00040000#32, 0x00040004#32]
      [(1, 0, 0x221F#16), (3, 3, 0x221F#16), (4, 0, 0x4210#16)] = true ∧
    paints 0x2A4080FF#32 [0x00000000#32, 0x00000004#32, 0x00040000#32, 0x00040004#32]
      [(1, 0, 0x3217#16), (3, 3, 0x3217#16), (4, 0, 0x4210#16)] = true ∧
    paints 0x2B4080FF#32 [0x00000000#32, 0x00000004#32, 0x00040000#32, 0x00040004#32]
      [(1, 0, 0x3217#16), (3, 3, 0x3217#16), (4, 0, 0x4210#16)] = true := by decide +kernel

/-- R256 to R259. -/
theorem test_quadFT_variants :
    paints 0x2C4080FF#32 [0x00000000#32, 0x08000000#32, 0x00000004#32, 0x00010004#32, 0x00040000#32, 0x00000400#32, 0x00040004#32, 0x00000404#32]
      [(1, 0, 0x801F#16), (2, 0, 0x03E0#16), (1, 1, 0x8000#16), (3, 3, 0x9DFD#16), (4, 0, 0x4210#16)] = true ∧
    paints 0x2D4080FF#32 [0x00000000#32, 0x08000000#32, 0x00000004#32, 0x00010004#32, 0x00040000#32, 0x00000400#32, 0x00040004#32, 0x00000404#32]
      [(1, 0, 0x801F#16), (2, 0, 0x03E0#16), (1, 1, 0x8000#16), (3, 3, 0xBDEF#16), (4, 0, 0x4210#16)] = true ∧
    paints 0x2E4080FF#32 [0x00000000#32, 0x08000000#32, 0x00000004#32, 0x00010004#32, 0x00040000#32, 0x00000400#32, 0x00040004#32, 0x00000404#32]
      [(1, 0, 0xA117#16), (2, 0, 0x03E0#16), (1, 1, 0xA108#16), (3, 3, 0xADF6#16), (4, 0, 0x4210#16)] = true ∧
    paints 0x2F4080FF#32 [0x00000000#32, 0x08000000#32, 0x00000004#32, 0x00010004#32, 0x00040000#32, 0x00000400#32, 0x00040004#32, 0x00000404#32]
      [(1, 0, 0xA117#16), (2, 0, 0x03E0#16), (1, 1, 0xA108#16), (3, 3, 0xBDEF#16), (4, 0, 0x4210#16)] = true := by decide +kernel

/-- R260 to R263. -/
theorem test_triG_variants :
    paints 0x304080FF#32 [0x00000000#32, 0x0000FF00#32, 0x00000004#32, 0x00FF0000#32, 0x00040000#32]
      [(1, 0, 0x1A77#16), (2, 0, 0x12EF#16), (0, 1, 0x3597#16), (1, 1, 0x2DEF#16), (4, 0, 0x4210#16)] = true ∧
    paints 0x314080FF#32 [0x00000000#32, 0x0000FF00#32, 0x00000004#32, 0x00FF0000#32, 0x00040000#32]
      [(1, 0, 0x1A77#16), (2, 0, 0x12EF#16), (0, 1, 0x3597#16), (1, 1, 0x2DEF#16), (4, 0, 0x4210#16)] = true ∧
    paints 0x324080FF#32 [0x00000000#32, 0x0000FF00#32, 0x00000004#32, 0x00FF0000#32, 0x00040000#32]
      [(1, 0, 0x2E33#16), (2, 0, 0x2A6F#16), (0, 1, 0x39D3#16), (1, 1, 0x35EF#16), (4, 0, 0x4210#16)] = true ∧
    paints 0x334080FF#32 [0x00000000#32, 0x0000FF00#32, 0x00000004#32, 0x00FF0000#32, 0x00040000#32]
      [(1, 0, 0x2E33#16), (2, 0, 0x2A6F#16), (0, 1, 0x39D3#16), (1, 1, 0x35EF#16), (4, 0, 0x4210#16)] = true := by decide +kernel

/-- R264 to R267. -/
theorem test_triGT_variants :
    paints 0x344080FF#32 [0x00000000#32, 0x08000000#32, 0x0000FF00#32, 0x00000004#32, 0x00010004#32, 0x00FF0000#32, 0x00040000#32, 0x00000400#32]
      [(1, 0, 0x801F#16), (2, 0, 0x03E0#16), (0, 1, 0x3FFF#16), (1, 1, 0x8000#16), (4, 0, 0x4210#16)] = true ∧
    paints 0x354080FF#32 [0x00000000#32, 0x08000000#32, 0x0000FF00#32, 0x00000004#32, 0x00010004#32, 0x00FF0000#32, 0x00040000#32, 0x00000400#32]
      [(1, 0, 0x801F#16), (2, 0, 0x03E0#16), (0, 1, 0x7FFF#16), (1, 1, 0x8000#16), (4, 0, 0x4210#16)] = true ∧
    paints 0x364080FF#32 [0x00000000#32, 0x08000000#32, 0x0000FF00#32, 0x00000004#32, 0x00010004#32, 0x00FF0000#32, 0x00040000#32, 0x00000400#32]
      [(1, 0, 0xA117#16), (2, 0, 0x03E0#16), (0, 1, 0x3FFF#16), (1, 1, 0xA108#16), (4, 0, 0x4210#16)] = true ∧
    paints 0x374080FF#32 [0x00000000#32, 0x08000000#32, 0x0000FF00#32, 0x00000004#32, 0x00010004#32, 0x00FF0000#32, 0x00040000#32, 0x00000400#32]
      [(1, 0, 0xA117#16), (2, 0, 0x03E0#16), (0, 1, 0x7FFF#16), (1, 1, 0xA108#16), (4, 0, 0x4210#16)] = true := by decide +kernel

/-- R268 to R271. -/
theorem test_quadG_variants :
    paints 0x384080FF#32 [0x00000000#32, 0x0000FF00#32, 0x00000004#32, 0x00FF0000#32, 0x00040000#32, 0x00FFFFFF#32, 0x00040004#32]
      [(1, 0, 0x1A77#16), (2, 0, 0x12EF#16), (1, 1, 0x2DEF#16), (3, 3, 0x5EEF#16), (4, 0, 0x4210#16)] = true ∧
    paints 0x394080FF#32 [0x00000000#32, 0x0000FF00#32, 0x00000004#32, 0x00FF0000#32, 0x00040000#32, 0x00FFFFFF#32, 0x00040004#32]
      [(1, 0, 0x1A77#16), (2, 0, 0x12EF#16), (1, 1, 0x2DEF#16), (3, 3, 0x5EEF#16), (4, 0, 0x4210#16)] = true ∧
    paints 0x3A4080FF#32 [0x00000000#32, 0x0000FF00#32, 0x00000004#32, 0x00FF0000#32, 0x00040000#32, 0x00FFFFFF#32, 0x00040004#32]
      [(1, 0, 0x2E33#16), (2, 0, 0x2A6F#16), (1, 1, 0x35EF#16), (3, 3, 0x4E6F#16), (4, 0, 0x4210#16)] = true ∧
    paints 0x3B4080FF#32 [0x00000000#32, 0x0000FF00#32, 0x00000004#32, 0x00FF0000#32, 0x00040000#32, 0x00FFFFFF#32, 0x00040004#32]
      [(1, 0, 0x2E33#16), (2, 0, 0x2A6F#16), (1, 1, 0x35EF#16), (3, 3, 0x4E6F#16), (4, 0, 0x4210#16)] = true := by decide +kernel

/-- R272 to R275. -/
theorem test_quadGT_variants :
    paints 0x3C4080FF#32 [0x00000000#32, 0x08000000#32, 0x0000FF00#32, 0x00000004#32, 0x00010004#32, 0x00FF0000#32, 0x00040000#32, 0x00000400#32, 0x00FFFFFF#32, 0x00040004#32, 0x00000404#32]
      [(1, 0, 0x801F#16), (2, 0, 0x03E0#16), (1, 1, 0x8000#16), (3, 3, 0x9DFD#16), (4, 0, 0x4210#16)] = true ∧
    paints 0x3D4080FF#32 [0x00000000#32, 0x08000000#32, 0x0000FF00#32, 0x00000004#32, 0x00010004#32, 0x00FF0000#32, 0x00040000#32, 0x00000400#32, 0x00FFFFFF#32, 0x00040004#32, 0x00000404#32]
      [(1, 0, 0x801F#16), (2, 0, 0x03E0#16), (1, 1, 0x8000#16), (3, 3, 0xBDEF#16), (4, 0, 0x4210#16)] = true ∧
    paints 0x3E4080FF#32 [0x00000000#32, 0x08000000#32, 0x0000FF00#32, 0x00000004#32, 0x00010004#32, 0x00FF0000#32, 0x00040000#32, 0x00000400#32, 0x00FFFFFF#32, 0x00040004#32, 0x00000404#32]
      [(1, 0, 0xA117#16), (2, 0, 0x03E0#16), (1, 1, 0xA108#16), (3, 3, 0xADF6#16), (4, 0, 0x4210#16)] = true ∧
    paints 0x3F4080FF#32 [0x00000000#32, 0x08000000#32, 0x0000FF00#32, 0x00000004#32, 0x00010004#32, 0x00FF0000#32, 0x00040000#32, 0x00000400#32, 0x00FFFFFF#32, 0x00040004#32, 0x00000404#32]
      [(1, 0, 0xA117#16), (2, 0, 0x03E0#16), (1, 1, 0xA108#16), (3, 3, 0xBDEF#16), (4, 0, 0x4210#16)] = true := by decide +kernel

/-- R338 to R341. -/
theorem test_rectV_variants :
    paints 0x604080FF#32 [0x00010001#32, 0x00020003#32]
      [(1, 1, 0x221F#16)] = true ∧
    paints 0x614080FF#32 [0x00010001#32, 0x00020003#32]
      [(1, 1, 0x221F#16)] = true ∧
    paints 0x624080FF#32 [0x00010001#32, 0x00020003#32]
      [(1, 1, 0x3217#16)] = true ∧
    paints 0x634080FF#32 [0x00010001#32, 0x00020003#32]
      [(1, 1, 0x3217#16)] = true := by decide +kernel

/-- R342 to R345. -/
theorem test_rectVT_variants :
    paints 0x644080FF#32 [0x00010001#32, 0x08000001#32, 0x00020003#32]
      [(1, 1, 0x801F#16), (2, 1, 0x03E0#16), (3, 1, 0xBC00#16), (1, 2, 0x8000#16)] = true ∧
    paints 0x654080FF#32 [0x00010001#32, 0x08000001#32, 0x00020003#32]
      [(1, 1, 0x801F#16), (2, 1, 0x03E0#16), (3, 1, 0xFC00#16), (1, 2, 0x8000#16)] = true ∧
    paints 0x664080FF#32 [0x00010001#32, 0x08000001#32, 0x00020003#32]
      [(1, 1, 0xA117#16), (2, 1, 0x03E0#16), (3, 1, 0xBD08#16), (1, 2, 0xA108#16)] = true ∧
    paints 0x674080FF#32 [0x00010001#32, 0x08000001#32, 0x00020003#32]
      [(1, 1, 0xA117#16), (2, 1, 0x03E0#16), (3, 1, 0xDD08#16), (1, 2, 0xA108#16)] = true := by decide +kernel

/-- R346 to R349. -/
theorem test_rect1_variants :
    paints 0x684080FF#32 [0x00010001#32]
      [(1, 1, 0x221F#16), (2, 1, 0x4210#16)] = true ∧
    paints 0x694080FF#32 [0x00010001#32]
      [(1, 1, 0x221F#16), (2, 1, 0x4210#16)] = true ∧
    paints 0x6A4080FF#32 [0x00010001#32]
      [(1, 1, 0x3217#16), (2, 1, 0x4210#16)] = true ∧
    paints 0x6B4080FF#32 [0x00010001#32]
      [(1, 1, 0x3217#16), (2, 1, 0x4210#16)] = true := by decide +kernel

/-- R350 to R353. -/
theorem test_rect1T_variants :
    paints 0x6C4080FF#32 [0x00010001#32, 0x08000001#32]
      [(1, 1, 0x801F#16), (2, 1, 0x4210#16)] = true ∧
    paints 0x6D4080FF#32 [0x00010001#32, 0x08000001#32]
      [(1, 1, 0x801F#16), (2, 1, 0x4210#16)] = true ∧
    paints 0x6E4080FF#32 [0x00010001#32, 0x08000001#32]
      [(1, 1, 0xA117#16), (2, 1, 0x4210#16)] = true ∧
    paints 0x6F4080FF#32 [0x00010001#32, 0x08000001#32]
      [(1, 1, 0xA117#16), (2, 1, 0x4210#16)] = true := by decide +kernel

/-- R354 to R357. -/
theorem test_rect8_variants :
    paints 0x704080FF#32 [0x00010001#32]
      [(1, 1, 0x221F#16)] = true ∧
    paints 0x714080FF#32 [0x00010001#32]
      [(1, 1, 0x221F#16)] = true ∧
    paints 0x724080FF#32 [0x00010001#32]
      [(1, 1, 0x3217#16)] = true ∧
    paints 0x734080FF#32 [0x00010001#32]
      [(1, 1, 0x3217#16)] = true := by decide +kernel

/-- R358 to R361. -/
theorem test_rect8T_variants :
    paints 0x744080FF#32 [0x00010001#32, 0x08000001#32]
      [(1, 1, 0x801F#16), (2, 1, 0x03E0#16), (3, 1, 0xBC00#16), (1, 2, 0x8000#16)] = true ∧
    paints 0x754080FF#32 [0x00010001#32, 0x08000001#32]
      [(1, 1, 0x801F#16), (2, 1, 0x03E0#16), (3, 1, 0xFC00#16), (1, 2, 0x8000#16)] = true ∧
    paints 0x764080FF#32 [0x00010001#32, 0x08000001#32]
      [(1, 1, 0xA117#16), (2, 1, 0x03E0#16), (3, 1, 0xBD08#16), (1, 2, 0xA108#16)] = true ∧
    paints 0x774080FF#32 [0x00010001#32, 0x08000001#32]
      [(1, 1, 0xA117#16), (2, 1, 0x03E0#16), (3, 1, 0xDD08#16), (1, 2, 0xA108#16)] = true := by decide +kernel

/-- R362 to R365. -/
theorem test_rect16_variants :
    paints 0x784080FF#32 [0x00010001#32]
      [(1, 1, 0x221F#16)] = true ∧
    paints 0x794080FF#32 [0x00010001#32]
      [(1, 1, 0x221F#16)] = true ∧
    paints 0x7A4080FF#32 [0x00010001#32]
      [(1, 1, 0x3217#16)] = true ∧
    paints 0x7B4080FF#32 [0x00010001#32]
      [(1, 1, 0x3217#16)] = true := by decide +kernel

/-- R366 to R369. -/
theorem test_rect16T_variants :
    paints 0x7C4080FF#32 [0x00010001#32, 0x08000001#32]
      [(1, 1, 0x801F#16), (2, 1, 0x03E0#16), (3, 1, 0xBC00#16), (1, 2, 0x8000#16)] = true ∧
    paints 0x7D4080FF#32 [0x00010001#32, 0x08000001#32]
      [(1, 1, 0x801F#16), (2, 1, 0x03E0#16), (3, 1, 0xFC00#16), (1, 2, 0x8000#16)] = true ∧
    paints 0x7E4080FF#32 [0x00010001#32, 0x08000001#32]
      [(1, 1, 0xA117#16), (2, 1, 0x03E0#16), (3, 1, 0xBD08#16), (1, 2, 0xA108#16)] = true ∧
    paints 0x7F4080FF#32 [0x00010001#32, 0x08000001#32]
      [(1, 1, 0xA117#16), (2, 1, 0x03E0#16), (3, 1, 0xDD08#16), (1, 2, 0xA108#16)] = true := by decide +kernel

/-! ## Decoding: words written out from 30_encoding.md -/

/-- 20_memory.md R77, 30_encoding.md R100: base, block and control of channels 0, 3 and 6, the two global registers, the
offsets that select nothing, and the GP0 ingress (R79). -/
theorem test_decode_register_accesses :
    decode (.reg ⟨.write, 0x1F801080#32, .word, 7#32⟩) = .ok (.dmaWrBase .mdecIn 7#32) ∧
    decode (.reg ⟨.write, 0x1F8010B4#32, .word, 7#32⟩) = .ok (.dmaWrBlock .cdRom 7#32) ∧
    decode (.reg ⟨.write, 0x9F8010E8#32, .word, 7#32⟩) = .ok (.dmaWrChctl .otc 7#32) ∧
    decode (.reg ⟨.read, 0x1F801090#32, .word, 0#32⟩) = .ok (.dmaRdBase .mdecOut) ∧
    decode (.reg ⟨.read, 0x1F8010C4#32, .word, 0#32⟩) = .ok (.dmaRdBlock .spu) ∧
    decode (.reg ⟨.read, 0x1F8010D8#32, .word, 0#32⟩) = .ok (.dmaRdChctl .pio) ∧
    decode (.reg ⟨.write, 0x1F8010F0#32, .word, 7#32⟩) = .ok (.dmaWrControl 7#32) ∧
    decode (.reg ⟨.write, 0x1F8010F4#32, .word, 7#32⟩) = .ok (.dmaWrInterrupt 7#32) ∧
    decode (.reg ⟨.read, 0xBF8010F0#32, .word, 0#32⟩) = .ok .dmaRdControl ∧
    decode (.reg ⟨.read, 0x1F8010F4#32, .word, 0#32⟩) = .ok .dmaRdInterrupt ∧
    decode (.reg ⟨.write, 0x1F8010AC#32, .word, 7#32⟩) = .ok (.dmaUnmapped .kuseg (.chanC .gpu) .write 7#32) ∧
    decode (.reg ⟨.read, 0xBF8010F8#32, .word, 0#32⟩) = .ok (.dmaUnmapped .kseg1 .off78 .read 0#32) ∧
    decode (.reg ⟨.read, 0x9F8010FC#32, .word, 0#32⟩) = .ok (.dmaUnmapped .kseg0 .off7C .read 0#32) ∧
    decode (.reg ⟨.write, 0x1F801810#32, .word, 0xE1000000#32⟩) = .ok (.gp0Wr 0xE1000000#32) := by decide +kernel

/-- 20_memory.md R78, V7: the accesses that the window and the ingress refuse, and an address outside both. -/
theorem test_decode_refused_accesses :
    decode (.reg ⟨.read, 0x1F8010A8#32, .byte, 0#32⟩) = .error (.busError .wrongWidth) ∧
    decode (.reg ⟨.write, 0x1F8010AA#32, .word, 0#32⟩) = .error (.busError .unaligned) ∧
    decode (.reg ⟨.read, 0x1F801810#32, .word, 0#32⟩) = .error (.busError .unmapped) ∧
    decode (.reg ⟨.read, 0x00001000#32, .word, 0#32⟩) = .error .notRegister := by decide +kernel

/-- 30_encoding.md R103, R104, 41_dma_block_transfer.md R180: bit 0 direction, bits 10..9 mode, bit 24 enable. -/
theorem test_decode_control_words :
    decode (.chctl .spu 0x11000001#32) = .ok (.xferBlockFromram .spu 0x11000001#32) ∧
    decode (.chctl .cdRom 0x01000200#32) = .ok (.xferBlockToram .cdRom 0x01000200#32) ∧
    decode (.chctl .otc 0x11000003#32) = .ok (.xferBlockOtc 0x11000003#32) ∧
    decode (.chctl .gpu 0x01000401#32) = .ok (.xferList 0x01000401#32) ∧
    decode (.chctl .gpu 0x01000400#32) = .ok (.xferInvalid .gpu 0x01000400#32) ∧
    decode (.chctl .spu 0x01000401#32) = .ok (.xferInvalid .spu 0x01000401#32) ∧
    decode (.chctl .otc 0x01000601#32) = .ok (.xferInvalid .otc 0x01000601#32) ∧
    decode (.chctl .gpu 0x10000401#32) = .error .notEnabled := by decide +kernel

/-- 30_encoding.md R107: bits 31..24 size, bit 23 end, bits 22..0 of the link. -/
theorem test_decode_list_headers :
    decode (.llhdr 0x02001100#32) = .ok (.llNext 2#8 0x1100#23) ∧
    decode (.llhdr 0x03800000#32) = .ok (.llEnd 3#8 0#23) := by decide +kernel

/-- 30_encoding.md R108 to R112, R118: a Gouraud textured quad with every field another value; negative positions; the
ignored bits set (vertex bits 15..11 and 31..27, palette bit 15, page bits 6..5 and 15..9). -/
theorem test_decode_fields :
    decode (.gp0 0x3C030201#32 [0xFFFEF803#32, 0xC8C10504#32, 0xFF090807#32, 0x000B000A#32, 0xFF7B0D0C#32, 0x00100F0E#32,
        0x00120011#32, 0xFFFF1413#32, 0x00171615#32, 0x00190018#32, 0xFFFF1B1A#32]) =
      .ok (.quadGT ⟨⟨1, 2, 3⟩, ⟨3#11, 0x7FE#11⟩, ⟨4, 5⟩, ⟨1#6, 0x123#9⟩, ⟨7, 8, 9⟩, ⟨10#11, 11#11⟩, ⟨12, 13⟩,
        ⟨11#4, 1#1, 2#2⟩, ⟨14, 15, 16⟩, ⟨17#11, 18#11⟩, ⟨19, 20⟩, ⟨21, 22, 23⟩, ⟨24#11, 25#11⟩, ⟨26, 27⟩⟩) := by
  decide +kernel

/-- R113, R119: the size word holds the width low and the height high. -/
theorem test_decode_rectangle_fields :
    decode (.gp0 0x65030201#32 [0x00050004#32, 0x08000706#32, 0x00090008#32]) =
      .ok (.rectVTR ⟨⟨1, 2, 3⟩, ⟨4#11, 5#11⟩, ⟨6, 7⟩, ⟨0#6, 0x20#9⟩, 8#16, 9#16⟩) ∧
    decode (.gp0 0x78030201#32 [0x00050004#32]) = .ok (.rect16 ⟨⟨1, 2, 3⟩, ⟨4#11, 5#11⟩⟩) ∧
    decode (.gp0 0x78030201#32 []) = .error (.length 0x78030201#32) := by decide +kernel

/-- R117, vector E1 of 95_test_vectors.md: the environment words; R121: the refused ranges at their ends. -/
theorem test_decode_environment_and_refused :
    decode (.gp0 0xE1000125#32 []) = .ok (.drawmode ⟨5#4, 0#1, 2#2⟩ 1#2) ∧
    decode (.gp0 0xE3002810#32 []) = .ok (.areaTl 16#10 10#9) ∧
    decode (.gp0 0xE4003C0F#32 []) = .ok (.areaBr 15#10 15#9) ∧
    decode (.gp0 0xE50007FF#32 []) = .ok (.offset 0x7FF#11 0#11) ∧
    decode (.gp0 0x5F000001#32 []) = .ok (.line 0x1F000001#29) ∧
    decode (.gp0 0x1F000001#32 []) = .ok (.gp0Unknown00 0x1F000001#29) ∧
    decode (.gp0 0x80000001#32 []) = .ok (.gp0Unknown80 1#29) ∧
    decode (.gp0 0xAABBCCDD#32 []) = .ok (.gp0UnknownA0 0x0ABBCCDD#29) ∧
    decode (.gp0 0xDF000001#32 []) = .ok (.gp0UnknownC0 0x1F000001#29) ∧
    decode (.gp0 0xE2000001#32 []) = .ok (.gp0UnknownE0 2#5 1#24) := by decide +kernel

/-- 30_encoding.md R114, R120: every command byte of a polygon gives its own instruction, and no other number of
arguments does. -/
def commandByte (op : BitVec 8) (n : Nat) (is : Instr → Bool) : Bool :=
  (match decode (.gp0 (op ++ 0#24) (List.replicate n 0#32)) with
    | .ok i => is i
    | .error _ => false) &&
  (match decode (.gp0 (op ++ 0#24) (List.replicate (n + 1) 0#32)) with
    | .ok _ => false
    | .error r => r == .length (op ++ 0#24))

/-- The polygon rows of spec/opcode_table.json with the packet lengths of vector G1 (95_test_vectors.md). -/
theorem test_decode_polygon_bytes :
    commandByte 0x20#8 3 (fun i => match i with | .triF _ => true | _ => false) = true ∧
    commandByte 0x21#8 3 (fun i => match i with | .triFR _ => true | _ => false) = true ∧
    commandByte 0x22#8 3 (fun i => match i with | .triFS _ => true | _ => false) = true ∧
    commandByte 0x23#8 3 (fun i => match i with | .triFSR _ => true | _ => false) = true ∧
    commandByte 0x24#8 6 (fun i => match i with | .triFT _ => true | _ => false) = true ∧
    commandByte 0x25#8 6 (fun i => match i with | .triFTR _ => true | _ => false) = true ∧
    commandByte 0x26#8 6 (fun i => match i with | .triFTS _ => true | _ => false) = true ∧
    commandByte 0x27#8 6 (fun i => match i with | .triFTSR _ => true | _ => false) = true ∧
    commandByte 0x28#8 4 (fun i => match i with | .quadF _ => true | _ => false) = true ∧
    commandByte 0x29#8 4 (fun i => match i with | .quadFR _ => true | _ => false) = true ∧
    commandByte 0x2A#8 4 (fun i => match i with | .quadFS _ => true | _ => false) = true ∧
    commandByte 0x2B#8 4 (fun i => match i with | .quadFSR _ => true | _ => false) = true ∧
    commandByte 0x2C#8 8 (fun i => match i with | .quadFT _ => true | _ => false) = true ∧
    commandByte 0x2D#8 8 (fun i => match i with | .quadFTR _ => true | _ => false) = true ∧
    commandByte 0x2E#8 8 (fun i => match i with | .quadFTS _ => true | _ => false) = true ∧
    commandByte 0x2F#8 8 (fun i => match i with | .quadFTSR _ => true | _ => false) = true ∧
    commandByte 0x30#8 5 (fun i => match i with | .triG _ => true | _ => false) = true ∧
    commandByte 0x31#8 5 (fun i => match i with | .triGR _ => true | _ => false) = true ∧
    commandByte 0x32#8 5 (fun i => match i with | .triGS _ => true | _ => false) = true ∧
    commandByte 0x33#8 5 (fun i => match i with | .triGSR _ => true | _ => false) = true ∧
    commandByte 0x34#8 8 (fun i => match i with | .triGT _ => true | _ => false) = true ∧
    commandByte 0x35#8 8 (fun i => match i with | .triGTR _ => true | _ => false) = true ∧
    commandByte 0x36#8 8 (fun i => match i with | .triGTS _ => true | _ => false) = true ∧
    commandByte 0x37#8 8 (fun i => match i with | .triGTSR _ => true | _ => false) = true ∧
    commandByte 0x38#8 7 (fun i => match i with | .quadG _ => true | _ => false) = true ∧
    commandByte 0x39#8 7 (fun i => match i with | .quadGR _ => true | _ => false) = true ∧
    commandByte 0x3A#8 7 (fun i => match i with | .quadGS _ => true | _ => false) = true ∧
    commandByte 0x3B#8 7 (fun i => match i with | .quadGSR _ => true | _ => false) = true ∧
    commandByte 0x3C#8 11 (fun i => match i with | .quadGT _ => true | _ => false) = true ∧
    commandByte 0x3D#8 11 (fun i => match i with | .quadGTR _ => true | _ => false) = true ∧
    commandByte 0x3E#8 11 (fun i => match i with | .quadGTS _ => true | _ => false) = true ∧
    commandByte 0x3F#8 11 (fun i => match i with | .quadGTSR _ => true | _ => false) = true := by decide +kernel

/-- The rectangle rows of spec/opcode_table.json with the packet lengths of vector G1 (95_test_vectors.md). -/
theorem test_decode_rectangle_bytes :
    commandByte 0x60#8 2 (fun i => match i with | .rectV _ => true | _ => false) = true ∧
    commandByte 0x61#8 2 (fun i => match i with | .rectVR _ => true | _ => false) = true ∧
    commandByte 0x62#8 2 (fun i => match i with | .rectVS _ => true | _ => false) = true ∧
    commandByte 0x63#8 2 (fun i => match i with | .rectVSR _ => true | _ => false) = true ∧
    commandByte 0x64#8 3 (fun i => match i with | .rectVT _ => true | _ => false) = true ∧
    commandByte 0x65#8 3 (fun i => match i with | .rectVTR _ => true | _ => false) = true ∧
    commandByte 0x66#8 3 (fun i => match i with | .rectVTS _ => true | _ => false) = true ∧
    commandByte 0x67#8 3 (fun i => match i with | .rectVTSR _ => true | _ => false) = true ∧
    commandByte 0x68#8 1 (fun i => match i with | .rect1 _ => true | _ => false) = true ∧
    commandByte 0x69#8 1 (fun i => match i with | .rect1R _ => true | _ => false) = true ∧
    commandByte 0x6A#8 1 (fun i => match i with | .rect1S _ => true | _ => false) = true ∧
    commandByte 0x6B#8 1 (fun i => match i with | .rect1SR _ => true | _ => false) = true ∧
    commandByte 0x6C#8 2 (fun i => match i with | .rect1T _ => true | _ => false) = true ∧
    commandByte 0x6D#8 2 (fun i => match i with | .rect1TR _ => true | _ => false) = true ∧
    commandByte 0x6E#8 2 (fun i => match i with | .rect1TS _ => true | _ => false) = true ∧
    commandByte 0x6F#8 2 (fun i => match i with | .rect1TSR _ => true | _ => false) = true ∧
    commandByte 0x70#8 1 (fun i => match i with | .rect8 _ => true | _ => false) = true ∧
    commandByte 0x71#8 1 (fun i => match i with | .rect8R _ => true | _ => false) = true ∧
    commandByte 0x72#8 1 (fun i => match i with | .rect8S _ => true | _ => false) = true ∧
    commandByte 0x73#8 1 (fun i => match i with | .rect8SR _ => true | _ => false) = true ∧
    commandByte 0x74#8 2 (fun i => match i with | .rect8T _ => true | _ => false) = true ∧
    commandByte 0x75#8 2 (fun i => match i with | .rect8TR _ => true | _ => false) = true ∧
    commandByte 0x76#8 2 (fun i => match i with | .rect8TS _ => true | _ => false) = true ∧
    commandByte 0x77#8 2 (fun i => match i with | .rect8TSR _ => true | _ => false) = true ∧
    commandByte 0x78#8 1 (fun i => match i with | .rect16 _ => true | _ => false) = true ∧
    commandByte 0x79#8 1 (fun i => match i with | .rect16R _ => true | _ => false) = true ∧
    commandByte 0x7A#8 1 (fun i => match i with | .rect16S _ => true | _ => false) = true ∧
    commandByte 0x7B#8 1 (fun i => match i with | .rect16SR _ => true | _ => false) = true ∧
    commandByte 0x7C#8 2 (fun i => match i with | .rect16T _ => true | _ => false) = true ∧
    commandByte 0x7D#8 2 (fun i => match i with | .rect16TR _ => true | _ => false) = true ∧
    commandByte 0x7E#8 2 (fun i => match i with | .rect16TS _ => true | _ => false) = true ∧
    commandByte 0x7F#8 2 (fun i => match i with | .rect16TSR _ => true | _ => false) = true := by decide +kernel

/-! ## Ill-formed terms are refused -/

/-- One ill-formed term for each check of `Instr.wellFormed`. -/
theorem test_ill_formed_terms_are_refused :
    (Instr.dmaUnmapped .kuseg .off78 .read 1#32).wellFormed = false ∧
    (Instr.xferBlockFromram .otc 0x11000001#32).wellFormed = false ∧
    (Instr.xferBlockFromram .spu 0x10000001#32).wellFormed = false ∧
    (Instr.xferBlockFromram .spu 0x01000401#32).wellFormed = false ∧
    (Instr.xferBlockFromram .spu 0x11000000#32).wellFormed = false ∧
    (Instr.xferBlockToram .otc 0x11000000#32).wellFormed = false ∧
    (Instr.xferBlockToram .spu 0x10000000#32).wellFormed = false ∧
    (Instr.xferBlockToram .spu 0x01000600#32).wellFormed = false ∧
    (Instr.xferBlockToram .spu 0x11000001#32).wellFormed = false ∧
    (Instr.xferBlockOtc 0x10000002#32).wellFormed = false ∧
    (Instr.xferBlockOtc 0x01000402#32).wellFormed = false ∧
    (Instr.xferList 0x00000401#32).wellFormed = false ∧
    (Instr.xferList 0x01000201#32).wellFormed = false ∧
    (Instr.xferList 0x01000400#32).wellFormed = false ∧
    (Instr.xferInvalid .gpu 0x00000601#32).wellFormed = false ∧
    (Instr.xferInvalid .gpu 0x01000401#32).wellFormed = false ∧
    (Instr.xferInvalid .spu 0x01000201#32).wellFormed = false ∧
    (Instr.gp0UnknownE0 1#5 0#24).wellFormed = false ∧
    (Instr.gp0UnknownE0 3#5 0#24).wellFormed = false ∧
    (Instr.gp0UnknownE0 4#5 0#24).wellFormed = false ∧
    (Instr.gp0UnknownE0 5#5 0#24).wellFormed = false := by decide +kernel

/-! ## The host's question: table words decode and run as the first step after reset -/

/-- The next step runs the instruction of a table word. -/
def firstStep (nbits w : Nat) (check : State → Bool) : Bool := goes (step (State.reset.withFetchWord nbits w)) check

/-- Rows of the five formats, with `nbits` and `match` as spec/opcode_table.json has them. -/
theorem test_table_words_decode :
    decodeTableWord 32 0x1F801080 = some (.dmaWrBase .mdecIn 0#32) ∧
    decodeTableWord 32 0x01000401 = some (.xferList 0x01000401#32) ∧
    decodeTableWord 32 0x01000000 = some (.xferBlockToram .mdecIn 0x01000000#32) ∧
    decodeTableWord 32 0x00000000 = some (.llNext 0#8 0#23) ∧
    decodeTableWord 32 0x00800000 = some (.llEnd 0#8 0#23) ∧
    decodeTableWord 32 0x20000000 = some (.triF ⟨⟨0, 0, 0⟩, ⟨0, 0⟩, ⟨0, 0⟩, ⟨0, 0⟩⟩) ∧
    decodeTableWord 32 0xE1000000 = some (.drawmode ⟨0, 0, 0⟩ 0#2) ∧
    decodeTableWord 32 0x40000000 = some (.line 0#29) := by decide +kernel

/-- The step that follows runs it: a register is written, a transfer and a list end, a command succeeds or is refused. -/
theorem test_table_words_run :
    firstStep 32 0x1F8010F0 (fun t => t.dmaControl == 0) = true ∧
    firstStep 32 0x01000401 (fun t => answers .done t && (t.chan .gpu).ctl == 0x401#32) = true ∧
    firstStep 32 0x01000000 (fun t => answers .done t && (t.chan .mdecIn).ctl == 0) = true ∧
    firstStep 32 0x00000000 (fun t => answers .done t && (t.chan .gpu).ctl == 0x401#32) = true ∧
    firstStep 32 0x00800000 (fun t => answers .done t && (t.chan .gpu).ctl == 0x401#32) = true ∧
    firstStep 32 0x20000000 (answers .done) = true ∧
    firstStep 32 0x40000000 (answers (.error (.unimplemented 0x40000000#32))) = true := by decide +kernel

/-! ## Bus and RAM -/

/-- Vectors S2, M1: a word at the top of RAM, its bytes low first, read back through KSEG0. -/
theorem test_ram_is_little_endian :
    goes (on (w32 0x001FFFFC#32 0xDEADBEEF#32) .reset)
      (fun t => ramRead8 t.ram 0x1FFFFC == 0xEF#8 && ramRead8 t.ram 0x1FFFFF == 0xDE#8 &&
        goes (on (r32 0x801FFFFC#32) t) (answers (.value 0xDEADBEEF#32))) = true := by decide +kernel

/-- Vector M1: a 16-bit write into a word. -/
theorem test_ram_narrow_write :
    goes (on (.bus ⟨.write, 0x102#32, .half, 0xBEEF#32⟩) (withWords [(0x100, 0x11223344#32)] .reset))
      (holds [(0x100, 0xBEEF3344#32)]) = true := by decide +kernel

/-- Vector M2: the refused accesses. -/
theorem test_refused_accesses :
    goes (on (r32 0x102#32) .reset) (answers (.error (.bus .unaligned 0x102#32 .word .read))) = true ∧
    goes (on (r32 0x200000#32) .reset) (answers (.error (.bus .unmapped 0x200000#32 .word .read))) = true ∧
    goes (on (.bus ⟨.write, 0x1F8010A8#32, .half, 0#32⟩) .reset)
      (answers (.error (.bus .wrongWidth 0x1F8010A8#32 .half .write))) = true ∧
    goes (on (r32 0x1F8010AC#32) .reset) (answers (.error (.bus .unmapped 0x1F8010AC#32 .word .read))) = true ∧
    goes (on (w32 0x1F8010F8#32 0#32) .reset) (answers (.error (.bus .unmapped 0x1F8010F8#32 .word .write))) = true := by
  decide +kernel

/-- 20_memory.md R76: Expansion-1 reads all ones; 90_conflicts.md C6: its row ends before 0x1F800000. -/
theorem test_expansion_reads_ones :
    goes (on (.bus ⟨.read, 0x1F000084#32, .byte, 0#32⟩) .reset) (answers (.value 0xFF#32)) = true ∧
    goes (on (r32 0x1F800000#32) .reset) (answers (.error (.bus .unmapped 0x1F800000#32 .word .read))) = true := by
  decide +kernel

/-! ## DMA registers -/

/-- R151 Example: bits 31..24 are dropped. -/
theorem test_write_base :
    goes (on (w32 0x1F8010A0#32 0x80001003#32) .reset) (fun t => (t.chan .gpu).base == 0x001003#24) = true := by
  decide +kernel

/-- Vector D2: every bit of the other two is kept. -/
theorem test_write_block_and_control :
    goes (on (w32 0x1F8010A4#32 0xFFFFFFFF#32) .reset) (fun t => (t.chan .gpu).block == 0xFFFFFFFF#32) = true ∧
    goes (on (w32 0x1F8010A8#32 0xEEFFFFFF#32) .reset)
      (fun t => answers .done t && (t.chan .gpu).ctl == 0xEEFFFFFF#32) = true := by decide +kernel

/-- Vector M3: a write through KSEG0, the read through KSEG1. -/
theorem test_control_register :
    goes (on (w32 0x9F8010F0#32 0x12345678#32) .reset)
      (fun t => goes (on (r32 0xBF8010F0#32) t) (answers (.value 0x12345678#32))) = true := by decide +kernel

/-- Vector D1. -/
theorem test_reset_reads :
    goes (on (r32 0x1F8010F0#32) .reset) (answers (.value 0x07654321#32)) = true ∧
    goes (on (r32 0x1F8010F4#32) .reset) (answers (.value 0#32)) = true ∧
    goes (on (r32 0x1F8010A8#32) .reset) (answers (.value 0#32)) = true ∧
    goes (on (r32 0x1F8010A0#32) .reset) (answers (.value 0#32)) = true ∧
    goes (on (r32 0x1F8010A4#32) .reset) (answers (.value 0#32)) = true := by decide +kernel

/-- R155 Example: writing 1 to flag 2 clears it. -/
theorem test_interrupt_write_one_clears :
    goes (on (w32 0x1F8010F4#32 0x04840000#32) { State.reset with dmaInterrupt := 0x04840000#31 })
      (fun t => interruptWord t.dmaInterrupt == 0x00840000#32) = true := by decide +kernel

/-- Vectors D3 and D5: force, and enabling the master for a flag that is set, raise `master_flag` and emit one event. -/
theorem test_interrupt_edges :
    goes (on (w32 0x1F8010F4#32 0x00008000#32) .reset)
      (fun t => interruptWord t.dmaInterrupt == 0x80008000#32 && t.irqEvents == 1) = true ∧
    goes (on (w32 0x1F8010F4#32 0x00840000#32) { State.reset with dmaInterrupt := 0x04040000#31 })
      (fun t => interruptWord t.dmaInterrupt == 0x84840000#32 && t.irqEvents == 1) = true := by decide +kernel

/-! ## Transfers -/

/-- A channel's registers set. -/
def withChan (ch : Chan) (base : BitVec 24) (block : Word) (s : State) : State :=
  { s with chans := s.chans.set ch ⟨base, block, 0⟩ }

/-- Vector B2: three words forward over the top of RAM, and backward. -/
theorem test_block_from_ram_wraps :
    goes (on (w32 0x1F8010C8#32 0x11000001#32)
        (withChan .spu 0x1FFFFC#24 3#32 (withWords [(0x1FFFFC, 0x11#32), (0, 0x22#32), (4, 0x33#32)] .reset)))
      (fun t => t.devOut == [(.spu, 0x11#32), (.spu, 0x22#32), (.spu, 0x33#32)] && (t.chan .spu).ctl == 1#32) = true ∧
    goes (on (w32 0x1F8010C8#32 0x11000003#32)
        (withChan .spu 4#24 3#32 (withWords [(0x1FFFFC, 0x11#32), (0, 0x22#32), (4, 0x33#32)] .reset)))
      (fun t => t.devOut == [(.spu, 0x33#32), (.spu, 0x22#32), (.spu, 0x11#32)]) = true := by decide +kernel

/-- Vector B4: no words, and the transfer still finishes with its flag and one event. -/
theorem test_block_of_no_words :
    goes (on (w32 0x1F8010C8#32 0x11000001#32) { State.reset with dmaInterrupt := 0x00900000#31 })
      (fun t => t.devOut == [] && (t.chan .spu).ctl == 1#32 && interruptWord t.dmaInterrupt == 0x90900000#32 &&
        t.irqEvents == 1) = true := by decide +kernel

/-- Vector B3: request mode counts block size times block count; the words laid ready land in order. -/
theorem test_block_to_ram :
    goes (on (w32 0x1F8010B8#32 0x01000200#32)
        (withChan .cdRom 0x8000#24 0x00030002#32
          { State.reset with devIn := State.reset.devIn.set .cdRom [1#32, 2#32, 3#32, 4#32, 5#32, 6#32] }))
      (fun t => holds [(0x8000, 1#32), (0x8004, 2#32), (0x8014, 6#32)] t && (t.chan .cdRom).ctl == 0x200#32) = true := by
  decide +kernel

/-- Vector B5: the Otc links wrap only in the cursor; vector S3 (middle column): four entries backward. -/
theorem test_otc_links :
    goes (on (w32 0x1F8010E8#32 0x11000003#32) (withChan .otc 0x100000#24 4#32 .reset))
      (fun t => holds [(0x100000, 0x000FFFFC#32), (0x0FFFFC, 0x000FFFF8#32), (0x0FFFF8, 0x000FFFF4#32),
        (0x0FFFF4, 0x00FFFFFF#32), (0x0FFFF0, 0#32)] t && (t.chan .otc).ctl == 3#32) = true ∧
    goes (on (w32 0x1F8010E8#32 0x11000002#32) (withChan .otc 8#24 4#32 .reset))
      (holds [(8, 4#32), (4, 0#32), (0, 0xFFFFFFFC#32), (0x1FFFFC, 0x00FFFFFF#32)]) = true := by decide +kernel

/-- Vector B6: an invalid mode is stored and left active. -/
theorem test_invalid_mode :
    goes (on (w32 0x1F8010C8#32 0x01000401#32) .reset)
      (fun t => answers (.error (.invalidSyncMode .spu)) t && (t.chan .spu).ctl == 0x01000401#32) = true := by
  decide +kernel

/-- Vector D4: an empty list sets its flag and emits one event. -/
theorem test_empty_list :
    goes (on (w32 0x1F8010A8#32 0x01000401#32)
        (withChan .gpu 0x1000#24 0#32
          (withWords [(0x1000, 0x00FFFFFF#32)] { State.reset with dmaInterrupt := 0x00840000#31 })))
      (fun t => interruptWord t.dmaInterrupt == 0x84840000#32 && t.irqEvents == 1 && t.listAddr == 0) = true := by
  decide +kernel

/-- Vector L4: a packet split across two list packets. -/
theorem test_list_splits_a_packet :
    goes (on (w32 0x1F8010A8#32 0x01000401#32)
        (withChan .gpu 0x1000#24 0#32
          (withWords [(0x1000, 0x03001100#32), (0x1004, 0xE3000000#32), (0x1008, 0xE4003C0F#32), (0x100C, 0x200000F8#32),
            (0x1100, 0x03FFFFFF#32), (0x1108, 2#32), (0x110C, 0x00020000#32)] .reset)))
      (fun t => shows [(0, 0, 0x001F#16), (1, 0, 0x001F#16), (0, 1, 0x001F#16), (1, 1, 0#16)] t && t.gp0Buf == [] &&
        answers .done t) = true := by decide +kernel

/-- Vector S6 with the real ingress: the pushed word is an unknown command, and the transfer ends in its error. -/
theorem test_list_ends_in_a_decode_error :
    goes (on (w32 0x1F8010A8#32 0x01000401#32)
        (withChan .gpu 0x1000#24 0#32
          (withWords [(0x1000, 0x01002000#32), (0x1004, 0xAABBCCDD#32), (0x2000, 0x00FFFFFF#32)] .reset)))
      (fun t => answers (.error (.unknownCommand 0xAABBCCDD#32)) t && (t.chan .gpu).ctl == 0x01000401#32) = true := by
  decide +kernel

/-- Vector L3, the parameter `LL_CAP` taken as 4: the abort clears enable only and sets flag 2 whatever its enable. -/
theorem test_runaway_list :
    goes (linkedList 4 ((withChan .gpu 0x1000#24 0#32
        (withWords [(0x1000, 0x01001000#32), (0x1004, 0xE1000000#32)]
          { State.reset with dmaInterrupt := 0x00800000#31 })).setCtl .gpu 0x11000401#32))
      (fun t => answers (.error (.dmaRunaway .gpu)) t && (t.chan .gpu).ctl == 0x10000401#32 &&
        interruptWord t.dmaInterrupt == 0x04800000#32 && t.irqEvents == 0) = true := by decide +kernel

/-! ## The GP0 ingress and the environment -/

/-- Vector G3: an argument word is not decoded as a command. -/
theorem test_ingress_queues_arguments :
    goes (on (w32 0x1F801810#32 0xE5002805#32) { State.reset with gp0Buf := [0x200000F8#32, 0#32] })
      (fun t => t.gp0Buf == [0x200000F8#32, 0#32, 0xE5002805#32] && t.drawOffset == ⟨0, 0⟩) = true := by decide +kernel

/-- Vector S4: the completing word draws the triangle and empties the buffer. -/
theorem test_ingress_completes_a_packet :
    goes (on (w32 0x1F801810#32 0x00020000#32) { area8 with gp0Buf := [0x200000F8#32, 0#32, 2#32] })
      (fun t => t.gp0Buf == [] &&
        shows [(0, 0, 0x001F#16), (1, 0, 0x001F#16), (0, 1, 0x001F#16), (1, 1, 0#16), (2, 0, 0#16), (0, 2, 0#16)] t) =
      true := by decide +kernel

/-- Vector E1. -/
theorem test_environment_commands :
    goes (on (.execute 0xE1000125#32 []) .reset) (fun t => t.texPage == ⟨5#4, 0#1, 2#2⟩ && t.semiOp == 1#2) = true ∧
    goes (on (.execute 0xE3002810#32 []) .reset) (fun t => t.drawArea == ⟨16, 10, 0, 0⟩) = true ∧
    goes (on (.execute 0xE4003C0F#32 []) .reset) (fun t => t.drawArea == ⟨0, 0, 15, 15⟩) = true ∧
    goes (on (.execute 0xE50007FF#32 []) .reset)
      (fun t => t.drawOffset.dx.toInt == -1 && t.drawOffset.dy.toInt == 0) = true := by decide +kernel

/-- Vector G2: the refused words, nothing queued. -/
theorem test_refused_commands :
    goes (on (w32 0x1F801810#32 0x40000001#32) .reset)
      (fun t => answers (.error (.unimplemented 0x40000001#32)) t && t.gp0Buf == []) = true ∧
    goes (on (w32 0x1F801810#32 0xE0000001#32) .reset)
      (fun t => answers (.error (.unknownCommand 0xE0000001#32)) t && t.gp0Buf == []) = true := by decide +kernel

/-- Vector E2: the reserved depth. -/
theorem test_reserved_depth :
    goes (on (.execute 0x64808080#32 [0#32, 0#32, 0x00010001#32]) { area8 with texPage := ⟨0, 0, 3⟩ })
      (fun t => answers (.error (.reservedDepth 0x64808080#32)) t && t.vram == []) = true ∧
    goes (on (.execute 0x24808080#32 [0#32, 0#32, 4#32, 0x01800000#32, 0x00040000#32, 0#32]) area8)
      (fun t => answers (.error (.reservedDepth 0x24808080#32)) t && t.vram == []) = true := by decide +kernel

/-! ## Corners of drawing -/

/-- Vector T1: the winding does not matter. -/
theorem test_triangle_winding :
    goes (on (.execute 0x200000F8#32 [0#32, 0x00020000#32, 2#32]) area8)
      (fun t => t.vram.length == 3 && shows [(0, 0, 0x001F#16), (1, 0, 0x001F#16), (0, 1, 0x001F#16)] t) = true := by
  decide +kernel

/-- Vector T3: both corners of the drawing area are inside it. -/
theorem test_triangle_clipping :
    goes (on (.execute 0x20FFFFFF#32 [0#32, 8#32, 0x00080000#32]) { State.reset with drawArea := ⟨2, 1, 3, 2⟩ })
      (fun t => t.vram.length == 4 &&
        shows [(2, 1, 0x7FFF#16), (2, 2, 0x7FFF#16), (3, 1, 0x7FFF#16), (3, 2, 0x7FFF#16)] t) = true := by decide +kernel

/-- Vector T5: negative positions. -/
theorem test_triangle_negative_positions :
    goes (on (.execute 0x20FFFFFF#32 [0x07FE07FD#32, 0x07FE0005#32, 0x000607FD#32]) area8)
      (fun t => t.vram.length == 6 && shows [(0, 2, 0x7FFF#16), (1, 1, 0x7FFF#16), (2, 0, 0x7FFF#16)] t) = true := by
  decide +kernel

/-- Vector T7, at `(1, 1)`: the weights (8, 4, 4) of 16. -/
theorem test_gouraud_weights :
    goes (on (.execute 0x300000FF#32 [0#32, 0x0000FF00#32, 4#32, 0x00FF0000#32, 0x00040000#32]) area8)
      (shows [(1, 1, 0x1CEF#16), (3, 0, 0x02E7#16), (0, 3, 0x5C07#16)]) = true := by decide +kernel

/-- Vector X4: the four blend operators on a whole pixel. -/
theorem test_blend_operators :
    blend 0#2 0x4210#16 0x221F#16 = 0x3217#16 ∧ blend 1#2 0x4210#16 0x221F#16 = 0x63FF#16 ∧
    blend 2#2 0x4210#16 0x221F#16 = 0x2000#16 ∧ blend 3#2 0x4210#16 0x221F#16 = 0x4A97#16 := by decide +kernel

/-- Vectors X2 and X8: modulation. -/
theorem test_modulation :
    modulate5 15 0xFF = 29 ∧ modulate5 31 0x40 = 15 ∧ modulate5 1 0x7F = 0 ∧ modulate5 10 0xC0 = 15 ∧
    modulate 0x7FFF#16 ⟨0xFF, 0x80, 0x40⟩ = 0x3FFF#16 ∧ modulate 0xFC00#16 ⟨0xFF, 0x80, 0x40⟩ = 0xBC00#16 := by
  decide +kernel

/-- Vector X6: the 8-bit depth takes the low byte first. -/
theorem test_sample_p8 :
    goes (on (.execute 0x65808080#32 [0#32, 0x19200000#32, 0x00010004#32])
        (withPixels [(320, 0, 0x0201#16), (321, 0, 0xFF03#16), (513, 100, 0x001F#16), (514, 100, 0x03E0#16),
          (515, 100, 0x7C00#16), (767, 100, 0xFFFF#16)] { area8 with texPage := ⟨5, 0, 1⟩ }))
      (shows [(0, 0, 0x001F#16), (1, 0, 0x03E0#16), (2, 0, 0x7C00#16), (3, 0, 0xFFFF#16)]) = true := by decide +kernel

/-- Vectors X5 and K2: a zero texel is transparent, 0x8000 is not; the texture coordinate wraps at 256. -/
theorem test_transparency_and_wrap :
    goes (on (.execute 0x65808080#32 [0#32, 0#32, 0x00010004#32])
        (withPixels [(0, 0, 0x1234#16), (257, 256, 0x8000#16), (258, 256, 0x7C1F#16), (259, 256, 1#16)]
          { area8 with texPage := ⟨4, 1, 2⟩ }))
      (shows [(0, 0, 0x1234#16), (1, 0, 0x8000#16), (2, 0, 0x7C1F#16), (3, 0, 1#16)]) = true ∧
    goes (on (.execute 0x65808080#32 [0#32, 0x000007FE#32, 0x00010004#32])
        (withPixels [(510, 263, 0x80FE#16), (511, 263, 0x80FF#16), (256, 263, 0x8000#16), (257, 263, 0x8001#16)]
          { area8 with texPage := ⟨4, 1, 2⟩ }))
      (shows [(0, 0, 0x80FE#16), (1, 0, 0x80FF#16), (2, 0, 0x8000#16), (3, 0, 0x8001#16)]) = true := by decide +kernel

/-- Vector K1: clipping keeps the texture aligned to the rectangle's corner (pixel (0,0) is texel (3,2)). -/
theorem test_rectangle_clipping_keeps_texels :
    goes (on (.execute 0x65808080#32 [0x07FF07FE#32, 0x00000101#32, 0x00040005#32])
        (withPixels [(259, 258, 0x8043#16), (261, 260, 0x8085#16)] { area8 with texPage := ⟨4, 1, 2⟩ }))
      (shows [(0, 0, 0x8043#16), (2, 2, 0x8085#16)]) = true := by decide +kernel

/-! ## Witnesses: for every statement with hypotheses, a state and operands that meet them -/

/-- An outcome that passes a check is a next state. -/
theorem goes_next {o : Out} {check : State → Bool} (h : goes o check = true) : ∃ t, o = .next t ∧ check t = true := by
  unfold goes at h
  split at h
  · exact ⟨_, rfl, h⟩
  · cases h
  · cases h

theorem witness_EveryInstructionDecodesFromItsEncoding :
    (Instr.dmaUnmapped .kseg1 .off7C .read 0#32).wellFormed = true ∧
    (Instr.dmaUnmapped .kuseg (.chanC .otc) .write 5#32).wellFormed = true ∧
    (Instr.xferBlockFromram .gpu 0x11000001#32).wellFormed = true ∧
    (Instr.xferBlockToram .pio 0x01000200#32).wellFormed = true ∧
    (Instr.xferBlockOtc 0x11000003#32).wellFormed = true ∧
    (Instr.xferList 0xFFFFFDFF#32).wellFormed = true ∧
    (Instr.xferInvalid .gpu 0x01000400#32).wellFormed = true ∧
    (Instr.xferInvalid .otc 0x01000600#32).wellFormed = true ∧
    (Instr.gp0UnknownE0 0#5 0#24).wellFormed = true ∧ (Instr.gp0UnknownE0 31#5 0#24).wellFormed = true := by decide +kernel

theorem witness_EveryDecodedInstructionIsWellFormed :
    decode (.gp0 0xFF000000#32 [1#32]) = .ok (.gp0UnknownE0 31#5 0#24) ∧
    decode (.chctl .mdecIn 0x01000400#32) = .ok (.xferInvalid .mdecIn 0x01000400#32) := by decide +kernel

theorem witness_APacketIsAcceptedExactlyAtItsLength :
    packetLen 0x3CFFFFFF#32 = .ok 12 ∧ packetLen 0xE1FFFFFF#32 = .ok 1 ∧ packetLen 0x68FFFFFF#32 = .ok 2 ∧
    packetLen 0x5FFFFFFF#32 = .error .unimplemented ∧ packetLen 0xE2FFFFFF#32 = .error .unknownCommand := by decide +kernel

theorem witness_TheThreeMirrorsReachTheSameRegisters :
    inDmaWindow 0x1F801080#32 = true ∧ inDmaWindow 0x1F8010FF#32 = true ∧ inDmaWindow 0x1F80107F#32 = false ∧
    inDmaWindow 0x1F801100#32 = false ∧ inGp0Word 0x1F801810#32 = true ∧ inGp0Word 0x1F801813#32 = true ∧
    inGp0Word 0x1F801814#32 = false := by decide +kernel

theorem witness_AStepRunsTheDecodedInstruction :
    (∃ s : State, s.pending = [.bus ⟨.write, 0x1F8010F0#32, .word, 1#32⟩] ∧
      decode (.reg ⟨.write, 0x1F8010F0#32, .word, 1#32⟩) = .ok (.dmaWrControl 1#32)) ∧
    (∃ s : State, s.pending = [.execute 0xE5000001#32 []] ∧ decode (.gp0 0xE5000001#32 []) = .ok (.offset 1#11 0#11)) ∧
    State.reset.pending = [] :=
  ⟨⟨{ State.reset with pending := [.bus ⟨.write, 0x1F8010F0#32, .word, 1#32⟩] }, rfl, by decide +kernel⟩,
    ⟨{ State.reset with pending := [.execute 0xE5000001#32 []] }, rfl, by decide +kernel⟩, rfl⟩

/-- The second case of the statement is met too: a write to Expansion-1. -/
theorem witness_AStepStopsOnlyAtUnitsOutsideTheBlock :
    step { State.reset with pending := [w32 0x1F000000#32 0#32] } =
      .fault (.outsideBlock .expansion1 ⟨.write, 0x1F000000#32, .word, 0#32⟩) := rfl

theorem witness_EveryStepKeepsTheInvariant : ∃ s t, s.pending ≠ [] ∧ BlockInv s ∧ step s = .next t := by
  obtain ⟨t, h, -⟩ := goes_next (o := on (w32 0x100#32 7#32) .reset) (check := fun _ => true) (by decide +kernel)
  exact ⟨_, t, List.cons_ne_nil _ _, ⟨by decide +kernel, by decide +kernel, by decide +kernel, rfl⟩, h⟩

theorem witness_OneInterruptEventPerRiseOfTheMasterFlag :
    (∃ t, exec (.dmaWrInterrupt 0x8000#32) .reset = .next t ∧ irqEdge .reset t = 1) ∧
    (∃ t, exec (.dmaWrInterrupt 0#32) .reset = .next t ∧ irqEdge .reset t = 0) := by
  constructor
  · obtain ⟨t, h, c⟩ := goes_next (o := exec (.dmaWrInterrupt 0x8000#32) .reset)
      (check := fun t => irqEdge .reset t == 1) (by decide +kernel)
    exact ⟨t, h, by simpa using c⟩
  · obtain ⟨t, h, c⟩ := goes_next (o := exec (.dmaWrInterrupt 0#32) .reset)
      (check := fun t => irqEdge .reset t == 0) (by decide +kernel)
    exact ⟨t, h, by simpa using c⟩

/-- Flag 2 set. -/
def flagged : State := { State.reset with dmaInterrupt := 0x04000000#31 }

theorem witness_OnlyAHostWriteOfOneClearsAFlag : ∃ t, exec (.dmaWrInterrupt 0x04000000#32) flagged = .next t ∧
    intFlag flagged.dmaInterrupt .gpu = true ∧ intFlag t.dmaInterrupt .gpu = false := by
  obtain ⟨t, h, c⟩ := goes_next (o := exec (.dmaWrInterrupt 0x04000000#32) flagged)
    (check := fun t => !intFlag t.dmaInterrupt .gpu) (by decide +kernel)
  exact ⟨t, h, by decide +kernel, by simpa using c⟩

/-- A list whose one payload word is a `DRAWMODE`. -/
def envList : State := withWords [(0, 0x01800000#32), (4, 0xE1000020#32)] .reset

/-- Each premise is met: a register changes by its own write, and each part of the drawing environment by a command, by a GP0
word and by a transfer. -/
theorem witness_DmaRegistersChangeOnlyByTheirOwnWrites :
    (∃ t, exec (.dmaWrBase .spu 4#32) .reset = .next t ∧ (t.chan .spu).base ≠ (State.reset.chan .spu).base) ∧
    (∀ v, Instr.dmaWrBase .spu 4#32 ≠ .dmaWrBlock .spu v) ∧ (∀ v, Instr.dmaWrBase .spu 4#32 ≠ .dmaWrControl v) ∧
    (∀ v, Instr.dmaWrBase .spu 4#32 ≠ .dmaWrChctl .spu v) ∧ (∀ v, Instr.dmaRdControl ≠ .dmaWrBase .spu v) ∧
    (∃ t, exec (.areaBr 7 7) .reset = .next t ∧ t.drawArea ≠ State.reset.drawArea) ∧
    (∃ t, exec (.gp0Wr 0xE5000801#32) .reset = .next t ∧ t.drawOffset ≠ State.reset.drawOffset) ∧
    (∃ t, exec (.llEnd 1 0) envList = .next t ∧ t.semiOp ≠ envList.semiOp) := by
  refine ⟨?_, fun _ h => (nomatch h), fun _ h => (nomatch h), fun _ h => (nomatch h), fun _ h => (nomatch h), ?_, ?_, ?_⟩
  rotate_left
  · exact ⟨_, rfl, by decide +kernel⟩
  · obtain ⟨t, h, c⟩ := goes_next (o := exec (.gp0Wr 0xE5000801#32) .reset)
      (check := fun t => t.drawOffset != State.reset.drawOffset) (by decide +kernel)
    exact ⟨t, h, by simpa using c⟩
  · obtain ⟨t, h, c⟩ := goes_next (o := exec (.llEnd 1 0) envList)
      (check := fun t => t.semiOp != envList.semiOp) (by decide +kernel)
    exact ⟨t, h, by simpa using c⟩
  obtain ⟨t, h, c⟩ := goes_next (o := exec (.dmaWrBase .spu 4#32) .reset)
    (check := fun t => (t.chan .spu).base != (State.reset.chan .spu).base) (by decide +kernel)
  exact ⟨t, h, by simpa using c⟩

theorem witness_DmaControlGatesNothing :
    (∀ v, Instr.xferList 0x01000401#32 ≠ .dmaWrControl v) ∧ Instr.xferList 0x01000401#32 ≠ .dmaRdControl :=
  ⟨fun _ h => (nomatch h), fun h => (nomatch h)⟩

/-- A white triangle in the 8 by 8 area; a pixel outside that area. -/
def whiteTri : TriFlat := ⟨⟨255, 255, 255⟩, ⟨0, 0⟩, ⟨4, 0⟩, ⟨0, 4⟩⟩

theorem witness_Gp0CommandsReachOnlyTheGpu : isGp0 (.triF whiteTri) = true ∧ isPrimitive (.triF whiteTri) = true ∧
    isGp0 (.offset 1#11 0#11) = true ∧ isPrimitive (.offset 1#11 0#11) = false ∧
    ∃ t, exec (.triF whiteTri) area8 = .next t := ⟨rfl, rfl, rfl, rfl, _, rfl⟩

theorem witness_DrawingStaysInTheDrawingArea : isGp0 (.triF whiteTri) = true ∧
    (∃ t, exec (.triF whiteTri) area8 = .next t) ∧ inArea area8.drawArea 8 0 = false ∧
    inArea area8.drawArea 1023 511 = false ∧ inArea area8.drawArea 7 7 = true :=
  ⟨rfl, ⟨_, rfl⟩, by decide +kernel, by decide +kernel, by decide +kernel⟩

theorem witness_ARefusedAccessChangesNothing : ∃ t, runEvent (r32 0x102#32) .reset = .next t ∧
    t.result = .error (.bus .unaligned 0x102#32 .word .read) := by
  obtain ⟨t, h, c⟩ := goes_next (o := runEvent (r32 0x102#32) .reset)
    (check := answers (.error (.bus .unaligned 0x102#32 .word .read))) (by decide +kernel)
  exact ⟨t, h, by simpa [answers] using c⟩

/-- The clauses at the ends of their ranges. -/
theorem witness_RefusedAccessesNameTheirKind :
    (inDmaWindow (maskAddr 0xBF8010FC#32) = true ∧ Width.half ≠ Width.word) ∧
    (inGp0Word (maskAddr 0x1F801812#32) = true ∧ (maskAddr 0x1F801812#32).toNat % 4 ≠ 0) ∧
    (inGp0Word (maskAddr 0x9F801810#32) = true ∧ (maskAddr 0x9F801810#32).toNat % 4 = 0) ∧
    ((maskAddr 0xA01FFFFF#32).toNat < 0x200000 ∧ (maskAddr 0xA01FFFFF#32).toNat % Width.bytes .half ≠ 0) ∧
    (inDmaWindow (maskAddr 0xBF8010FC#32) = true ∧ (maskAddr 0xBF8010FC#32).toNat % 16 = 12) ∧
    (inDmaWindow (maskAddr 0x1F80108C#32) = true ∧ (maskAddr 0x1F80108C#32).toNat % 16 = 12) ∧
    (inDmaWindow (maskAddr 0x1F8010F8#32) = true ∧ (maskAddr 0x1F8010F8#32).toNat % 128 = 0x78) ∧
    (InOuterUnit (maskAddr 0x1F7FFFFF#32).toNat ∧ (maskAddr 0x1F7FFFFF#32).toNat % Width.bytes .word ≠ 0) ∧
    (InOuterUnit (maskAddr 0xBFC00001#32).toNat ∧ (maskAddr 0xBFC00001#32).toNat % Width.bytes .half ≠ 0) ∧
    (InOuterUnit (maskAddr 0xFFFE01FF#32).toNat ∧ (maskAddr 0xFFFE01FF#32).toNat % Width.bytes .half ≠ 0) ∧
    (inDmaWindow (maskAddr 0x1F801000#32) = false ∧ inGp0Word (maskAddr 0x1F801000#32) = false) ∧
    (inDmaWindow (maskAddr 0xBF801FFF#32) = false ∧ inGp0Word (maskAddr 0xBF801FFF#32) = false) ∧
    (inDmaWindow (maskAddr 0x1F801814#32) = false ∧ inGp0Word (maskAddr 0x1F801814#32) = false) ∧
    ¬ InSomeRow (maskAddr 0x200000#32).toNat ∧ ¬ InSomeRow (maskAddr 0x1F800000#32).toNat ∧
    ¬ InSomeRow (maskAddr 0xFFFE0200#32).toNat ∧ InSomeRow (maskAddr 0xFFFE01FF#32).toNat := by
  unfold InSomeRow InOuterUnit
  refine ⟨?_, ?_, ?_, ?_, ?_, ?_, ?_, ?_, ?_, ?_, ?_⟩ <;> decide +kernel

theorem witness_HostRamAccessesAreLittleEndianBytes :
    ((maskAddr 0x801FFFFF#32).toNat < 0x200000 ∧ (maskAddr 0x801FFFFF#32).toNat % Width.bytes .byte = 0) ∧
    ((maskAddr 0xA01FFFFE#32).toNat < 0x200000 ∧ (maskAddr 0xA01FFFFE#32).toNat % Width.bytes .half = 0) ∧
    ((maskAddr 0x001FFFFC#32).toNat < 0x200000 ∧ (maskAddr 0x001FFFFC#32).toNat % Width.bytes .word = 0) := by
  decide +kernel

/-- An inactive channel, and a control word without its trigger (10_state.md R40). -/
theorem witness_ChannelRegisterWritesStoreTheirValue :
    ctlActive (State.reset.chan .spu).ctl = false ∧ ctlActive 0x01000001#32 = false ∧ ctlActive 0xFEFFFFFF#32 = false := by
  decide +kernel

theorem witness_AWriteThatLeavesAChannelActiveRunsItsTransfer :
    (∃ s : State, ctlActive (s.chan .gpu).ctl = true ∧
      decode (.chctl .gpu (s.chan .gpu).ctl) = .ok (.xferList 0x01000401#32)) ∧
    ctlActive 0x01000201#32 = true ∧ ctlActive 0x11000001#32 = true ∧
    decode (.chctl .spu 0x11000001#32) = .ok (.xferBlockFromram .spu 0x11000001#32) :=
  ⟨⟨State.reset.setCtl .gpu 0x01000401#32, by decide +kernel, by decide +kernel⟩, by decide +kernel, by decide +kernel,
    by decide +kernel⟩

theorem witness_UnmappedOffsetsEndInABusError :
    decode (.reg ⟨.write, 0x9F8010EC#32, .word, 1#32⟩) = .ok (.dmaUnmapped .kseg0 (.chanC .otc) .write 1#32) := by
  decide +kernel

theorem witness_AFinishedTransferClearsStartAndSetsItsFlag : ∃ t, t = transferFinished .spu .reset := ⟨_, rfl⟩

theorem witness_FromRamSendsTheWordsOfTheCursorsInOrder :
    (Instr.xferBlockFromram .spu 0x11000003#32).wellFormed = true ∧
    (Instr.xferBlockFromram .gpu 0x01000201#32).wellFormed = true ∧
    (∃ n ws, n = wordCount 0x01000201#32 0x00020003#32 ∧ ws = cursorWords [] 0#24 4#32 n ∧ ws.length = 6) ∧
    (0x11000003#32).toNat / 512 % 4 = 0 ∧ (0x01000201#32).toNat / 512 % 4 = 1 ∧
    wordCount 0x01000201#32 0x0000FFFF#32 = 0 ∧ wordCount 0x01000201#32 0xFFFFFFFF#32 = 4294836225 :=
  ⟨by decide +kernel, by decide +kernel, ⟨_, _, rfl, rfl, by decide +kernel⟩, by decide +kernel, by decide +kernel,
    by decide +kernel, by decide +kernel⟩

/-- The last cursor at its address, at both ends of a transfer of two words that runs over the top of RAM, and an address
that no cursor stores to. -/
theorem witness_cursors : LastAt 0x1FFFFC#24 4#32 2 0 ∧ LastAt 0x1FFFFC#24 4#32 2 1 ∧
    (∀ k, k < 2 → ¬ inWord (cursor 0x1FFFFC#24 4#32 k) 4) ∧ inWord (cursor 0x1FFFFC#24 4#32 1) 3 := by
  have h0 : (cursor 0x1FFFFC#24 4#32 0).toNat = 0x1FFFFC := by decide +kernel
  have h1 : (cursor 0x1FFFFC#24 4#32 1).toNat = 0 := by decide +kernel
  have hne : cursor 0x1FFFFC#24 4#32 1 ≠ cursor 0x1FFFFC#24 4#32 0 := by decide +kernel
  refine ⟨⟨by omega, fun k' hk hk' => ?_⟩, ⟨by omega, fun k' hk hk' => by omega⟩, fun k hk => ?_, ?_⟩
  · obtain rfl : k' = 1 := by omega
    exact hne
  · unfold inWord
    obtain rfl | rfl : k = 0 ∨ k = 1 := by omega
    · omega
    · omega
  · unfold inWord; omega

theorem witness_ToRamStoresTheReceivedWordsAtTheCursors :
    (Instr.xferBlockToram .cdRom 0x01000200#32).wellFormed = true ∧ wordCount 0x01000200#32 0x00010002#32 = 2 ∧
    stepOf 0x01000200#32 = 4#32 ∧ LastAt 0x1FFFFC#24 4#32 2 0 :=
  ⟨by decide +kernel, by decide +kernel, by decide +kernel, witness_cursors.1⟩

theorem witness_OtcWritesTheChainOfLinks :
    (Instr.xferBlockOtc 0x11000000#32).wellFormed = true ∧ wordCount 0x11000000#32 2#32 = 2 ∧
    stepOf 0x11000000#32 = 4#32 ∧ LastAt 0x1FFFFC#24 4#32 2 0 ∧ LastAt 0x1FFFFC#24 4#32 2 1 :=
  ⟨by decide +kernel, by decide +kernel, by decide +kernel, witness_cursors.1, witness_cursors.2.1⟩

theorem witness_AnInvalidModeChangesNothingAndStaysActive :
    (Instr.xferInvalid .spu 0x01000401#32).wellFormed = true ∧ (Instr.xferInvalid .gpu 0x01000400#32).wellFormed = true ∧
    (Instr.xferInvalid .otc 0x01000600#32).wellFormed = true := by decide +kernel

/-- A list, and a block, whose first word GP0 refuses. -/
def refusedList : State :=
  withChan .gpu 0x1000#24 1#32 (withWords [(0x1000, 0x01002000#32), (0x1004, 0xAABBCCDD#32)] .reset)

/-- The same word sent by a block transfer. -/
def refusedBlock : State := withChan .gpu 0x1004#24 1#32 refusedList

theorem witness_ADecodeErrorInATransferLeavesTheChannelArmed :
    BlockInv refusedList ∧ BlockInv refusedBlock ∧
    (∃ t, exec (.xferList 0x01000401#32) refusedList = .next t ∧ t.result = .error (.unknownCommand 0xAABBCCDD#32)) ∧
    (∃ t, exec (.xferBlockFromram .gpu 0x11000001#32) refusedBlock = .next t ∧
      t.result = .error (.unknownCommand 0xAABBCCDD#32)) ∧
    (BlockError.unknownCommand 0xAABBCCDD#32).isGpuDecode = true := by
  refine ⟨⟨by decide +kernel, by decide +kernel, by decide +kernel, rfl⟩,
    ⟨by decide +kernel, by decide +kernel, by decide +kernel, rfl⟩, ?_, ?_, rfl⟩
  · obtain ⟨t, h, c⟩ := goes_next (o := exec (.xferList 0x01000401#32) refusedList)
      (check := answers (.error (.unknownCommand 0xAABBCCDD#32))) (by decide +kernel)
    exact ⟨t, h, by simpa [answers] using c⟩
  · obtain ⟨t, h, c⟩ := goes_next (o := exec (.xferBlockFromram .gpu 0x11000001#32) refusedBlock)
      (check := answers (.error (.unknownCommand 0xAABBCCDD#32))) (by decide +kernel)
    exact ⟨t, h, by simpa [answers] using c⟩

theorem witness_AListHeaderSendsItsPayloadThenContinuesOrEnds :
    ∃ ws, ws = (List.range (2#8).toNat).map (fun k =>
      ramRead32 State.reset.ram (dmaAddr (State.reset.listAddr + BitVec.ofNat 32 (4 * (k + 1)))).toNat) := ⟨_, rfl⟩

/-- Vector L1's three headers. -/
def threePackets : State :=
  withChan .gpu 0x1000#24 0#32
    (withWords [(0x1000, 0x02001100#32), (0x1100, 0x00001203#32), (0x1200, 0x03800000#32)] .reset)

theorem witness_AListWalkPushesEveryPayloadAndFinishes :
    IsList threePackets.ram [0x1000#32, 0x1100#32, 0x1200#32] ∧
    [0x1000#32, 0x1100#32, 0x1200#32].head? = some (startAddr (threePackets.chan .gpu).base) ∧ 3 ≤ Config.llCap :=
  ⟨⟨by decide +kernel, by decide +kernel, by decide +kernel, by decide +kernel,
    show (ramRead32 threePackets.ram 0x1200).getLsbD 23 = true by decide +kernel⟩, by decide +kernel, by decide +kernel⟩

theorem endless_zero {ram : List Host.Cell} (h : (ramRead32 ram (0#32).toNat).getLsbD 23 = false ∧
    dmaAddr (ramRead32 ram (0#32).toNat) = 0#32) (n : Nat) : IsEndless ram (List.replicate n 0#32) := by
  induction n with
  | zero => trivial
  | succ n ih =>
    cases n with
    | zero => exact h.1
    | succ m => exact ⟨h.1, h.2, ih⟩

theorem no_payload (n : Nat) : (List.replicate n 0#32).flatMap (payloadWords []) = [] := by
  have h : payloadWords [] 0#32 = [] := by decide +kernel
  induction n with
  | zero => rfl
  | succ n ih => simp only [List.replicate_succ, List.flatMap_cons, h, ih, List.append_nil]

/-- A header at 0 that leads to itself, its one payload word refused by GP0. -/
def refusedLoop : State := withWords [(0, 0x01000000#32), (4, 0xAABBCCDD#32)] .reset

/-- A first word that is refused ends the pushes. -/
theorem pushWords_refused {w : Word} {s : State} {t : State} (h : transferPush w s = .next t) (he : t.result.isError = true)
    (ws : List Word) : pushWords (w :: ws) s = .next t := by
  simp [pushWords, h, thenIfOk, he]

/-- In empty RAM the header at 0 leads to itself; and so does one whose payload ends the walk before the cap. -/
theorem witness_ARunawayListIsAbortedAtTheCap :
    IsEndless State.reset.ram (List.replicate Config.llCap 0#32) ∧
    (List.replicate Config.llCap 0#32).head? = some (startAddr (State.reset.chan .gpu).base) ∧
    (List.replicate Config.llCap 0#32).length = Config.llCap ∧
    (∃ u, pushWords ((List.replicate Config.llCap 0#32).flatMap (payloadWords State.reset.ram)) .reset = .next u ∧
      u.result.isError = false) ∧
    IsEndless refusedLoop.ram (List.replicate Config.llCap 0#32) ∧
    startAddr (refusedLoop.chan .gpu).base = startAddr (State.reset.chan .gpu).base ∧
    (∃ u, pushWords ((List.replicate Config.llCap 0#32).flatMap (payloadWords refusedLoop.ram)) refusedLoop = .next u ∧
      u.result.isError = true) := by
  refine ⟨endless_zero (by decide +kernel) _, ?_, List.length_replicate, ?_, endless_zero (by decide +kernel) _, rfl, ?_⟩
  · rw [List.head?_replicate, if_neg (by decide)]
    decide +kernel
  · rw [show State.reset.ram = [] from rfl, no_payload]
    exact ⟨_, rfl, rfl⟩
  · have hp : payloadWords refusedLoop.ram 0#32 = [0xAABBCCDD#32] := by decide +kernel
    obtain ⟨u, h, c⟩ := goes_next (o := transferPush 0xAABBCCDD#32 refusedLoop)
      (check := fun u => u.result.isError) (by decide +kernel)
    rw [show Config.llCap = 1048575 + 1 from rfl, List.replicate_succ, List.flatMap_cons, hp, List.singleton_append]
    exact ⟨u, pushWords_refused h c _, c⟩

theorem witness_AnOrderingTableIsAListThatDrawsNothing :
    ∃ s : State, (Instr.xferBlockOtc 0x11000002#32).wellFormed = true ∧ (0x11000002#32).getLsbD 1 = true ∧
      4 = wordCount 0x11000002#32 (s.chan .otc).block ∧ 4 * (4 - 1) ≤ (startAddr (s.chan .otc).base).toNat ∧
      startAddr (s.chan .gpu).base = startAddr (s.chan .otc).base :=
  ⟨withChan .otc 12#24 4#32 (withChan .gpu 12#24 0#32 .reset), by decide +kernel, by decide +kernel, by decide +kernel,
    by decide +kernel, by decide +kernel⟩

/-- A word queued, the word that completes, the command of one word, the refused word. -/
theorem witness_AGp0WordIsQueuedUntilItsPacketIsComplete :
    (bufferFramed [0x200000F8#32, 0#32] = true ∧ packetLen 0x200000F8#32 = .ok 4) ∧
    (bufferFramed [0x200000F8#32, 0#32, 2#32] = true) ∧
    (bufferFramed [] = true ∧ packetLen 0xE1000000#32 = .ok 1) ∧
    (packetLen 0x40000000#32 = .error .unimplemented) := by decide +kernel

theorem witness_WritingAPacketWordByWordIsItsCommand :
    (Instr.triF whiteTri).wellFormed = true ∧ State.reset.gp0Buf = [] ∧
    encode (.triF whiteTri) = .gp0 0x20FFFFFF#32 [0#32, 4#32, 0x00040000#32] := by decide +kernel

theorem witness_AWordVectorOfTheWrongLengthIsRefused :
    packetLen 0x68000000#32 = .ok 2 ∧ ([] : List Word).length + 1 ≠ 2 ∧ [0#32, 0#32].length + 1 ≠ 2 := by decide +kernel

theorem witness_RefusedCommandWordsRaiseTheirError (r : BitVec 29) (op : BitVec 5) (arg : BitVec 24) :
    (Instr.gp0UnknownE0 op arg, BlockError.unknownCommand (7#3 ++ op ++ arg)) ∈
      [(Instr.line r, BlockError.unimplemented (2#3 ++ r)), (.gp0Unknown00 r, .unknownCommand (0#3 ++ r)),
        (.gp0Unknown80 r, .unknownCommand (4#3 ++ r)), (.gp0UnknownA0 r, .unknownCommand (5#3 ++ r)),
        (.gp0UnknownC0 r, .unknownCommand (6#3 ++ r)), (.gp0UnknownE0 op arg, .unknownCommand (7#3 ++ op ++ arg))] := by
  simp

/-- The hypothesis of the statements about one shape names its four instructions; here each shape's last one. -/
theorem witness_shapes :
    (∀ p : TriFlat, (Instr.triFSR p, true, true) ∈ [(Instr.triF p, false, false), (.triFR p, true, false), (.triFS p, false, true), (.triFSR p, true, true)]) ∧
    (∀ p : TriGouraud, (Instr.triGSR p, true, true) ∈ [(Instr.triG p, false, false), (.triGR p, true, false), (.triGS p, false, true), (.triGSR p, true, true)]) ∧
    (∀ p : TriFlatTex, (Instr.triFTSR p, true, true) ∈ [(Instr.triFT p, false, false), (.triFTR p, true, false), (.triFTS p, false, true), (.triFTSR p, true, true)]) ∧
    (∀ p : TriGouraudTex, (Instr.triGTSR p, true, true) ∈ [(Instr.triGT p, false, false), (.triGTR p, true, false), (.triGTS p, false, true), (.triGTSR p, true, true)]) ∧
    (∀ p : RectVar, (Instr.rectVSR p, true, true) ∈ [(Instr.rectV p, false, false), (.rectVR p, true, false), (.rectVS p, false, true), (.rectVSR p, true, true)]) ∧
    (∀ p : RectVarTex, (Instr.rectVTSR p, true, true) ∈ [(Instr.rectVT p, false, false), (.rectVTR p, true, false), (.rectVTS p, false, true), (.rectVTSR p, true, true)]) := by
  simp

theorem witness_FlatTrianglesPaintTheirPixels : (Instr.triFSR whiteTri, true, true) ∈
    [(Instr.triF whiteTri, false, false), (.triFR whiteTri, true, false), (.triFS whiteTri, false, true),
      (.triFSR whiteTri, true, true)] := witness_shapes.1 _

theorem witness_GouraudTrianglesPaintTheirPixels (p : TriGouraud) : (Instr.triGSR p, true, true) ∈
    [(Instr.triG p, false, false), (.triGR p, true, false), (.triGS p, false, true), (.triGSR p, true, true)] :=
  witness_shapes.2.1 p

/-- A context of 4-bit texels at page `(64, 0)` with the CLUT at `(0, 32)`. -/
def p4Ctx : Ctx := ⟨.texP4, false, false, ⟨0#6, 32#9⟩, ⟨1#4, 0#1, 0#2⟩, ⟨128, 128, 128⟩, 0#2⟩

/-- A context of 16-bit texels at page `(256, 256)`. -/
def d16Ctx : Ctx := ⟨.texD16, true, true, ⟨0#6, 0#9⟩, ⟨4#4, 1#1, 2#2⟩, ⟨128, 128, 128⟩, 0#2⟩

/-- The two premises under which a textured primitive's pixels are stated: it reads outside its area; its area is one
pixel. Both are met, and so is each depth. -/
theorem witness_textured_premises :
    ReadsOutside ⟨0, 0, 7, 7⟩ p4Ctx ∧ ReadsOutside ⟨0, 0, 7, 7⟩ d16Ctx ∧ OnePixel ⟨3, 3, 3, 3⟩ ∧
    DepthGives 0#2 .texP4 ∧ DepthGives 1#2 .texP8 ∧ DepthGives 2#2 .texD16 := by
  refine ⟨⟨fun u v hu hv => ?_, fun k hk => ?_⟩, ⟨fun u v hu hv => ?_, fun k hk => ?_⟩, ⟨rfl, rfl⟩, .inl ⟨rfl, rfl⟩,
    .inr (.inl ⟨rfl, rfl⟩), .inr (.inr ⟨rfl, rfl⟩)⟩
  · have h : (baseX p4Ctx.page + texelColumn p4Ctx.rt u) % 1024 = 64 + u / 4 := by
      show (64 + u / 4) % 1024 = 64 + u / 4
      omega
    rw [h]
    simp [inArea]
    omega
  · have h : palY p4Ctx.pal % 512 = 32 := by decide +kernel
    rw [h]
    simp [inArea]
  · have h : (baseX d16Ctx.page + texelColumn d16Ctx.rt u) % 1024 = 256 + u := by
      show (256 + u) % 1024 = 256 + u
      omega
    rw [h]
    simp [inArea]
    omega
  · exact absurd hk (by simp [d16Ctx, clutSize])

theorem witness_FlatTexturedTrianglesPaintTheirTexels : ∃ (p : TriFlatTex) (s : State),
    (Instr.triFT p, false, false) ∈ [(Instr.triFT p, false, false), (.triFTR p, true, false), (.triFTS p, false, true),
      (.triFTSR p, true, true)] ∧ DepthGives p.page.depth .texP4 ∧
    p4Ctx = ⟨.texP4, false, false, p.pal, p.page, p.c, s.semiOp⟩ ∧ ReadsOutside s.drawArea p4Ctx :=
  ⟨⟨⟨128, 128, 128⟩, ⟨0, 0⟩, ⟨0, 0⟩, ⟨0#6, 32#9⟩, ⟨4, 0⟩, ⟨4, 0⟩, ⟨1#4, 0#1, 0#2⟩, ⟨0, 4⟩, ⟨0, 4⟩⟩, area8, by simp,
    .inl ⟨rfl, rfl⟩, rfl, witness_textured_premises.1⟩

theorem witness_GouraudTexturedTrianglesPaintTheirTexels : ∃ (p : TriGouraudTex) (s : State),
    (Instr.triGTSR p, true, true) ∈ [(Instr.triGT p, false, false), (.triGTR p, true, false), (.triGTS p, false, true),
      (.triGTSR p, true, true)] ∧ DepthGives p.page.depth .texD16 ∧
    d16Ctx = ⟨.texD16, true, true, p.pal, p.page, p.c, s.semiOp⟩ ∧ ReadsOutside s.drawArea d16Ctx :=
  ⟨⟨⟨128, 128, 128⟩, ⟨0, 0⟩, ⟨0, 0⟩, ⟨0#6, 0#9⟩, ⟨0, 0, 0⟩, ⟨4, 0⟩, ⟨4, 0⟩, ⟨4#4, 1#1, 2#2⟩, ⟨0, 0, 0⟩, ⟨0, 4⟩, ⟨0, 4⟩⟩,
    area8, by simp, .inr (.inr ⟨rfl, rfl⟩), rfl, witness_textured_premises.2.1⟩

theorem witness_UntexturedQuadsAreTwoTriangles (p : QuadFlat) :
    (Instr.quadFSR p, Instr.triFSR ⟨p.c, p.v0, p.v1, p.v2⟩, Instr.triFSR ⟨p.c, p.v1, p.v2, p.v3⟩) ∈
      [(Instr.quadF p, Instr.triF ⟨p.c, p.v0, p.v1, p.v2⟩, Instr.triF ⟨p.c, p.v1, p.v2, p.v3⟩),
        (.quadFR p, .triFR ⟨p.c, p.v0, p.v1, p.v2⟩, .triFR ⟨p.c, p.v1, p.v2, p.v3⟩),
        (.quadFS p, .triFS ⟨p.c, p.v0, p.v1, p.v2⟩, .triFS ⟨p.c, p.v1, p.v2, p.v3⟩),
        (.quadFSR p, .triFSR ⟨p.c, p.v0, p.v1, p.v2⟩, .triFSR ⟨p.c, p.v1, p.v2, p.v3⟩)] := by simp

theorem witness_TexturedQuadsAreTwoTriangles : ∃ (p : QuadFlatTex) (q : QuadGouraudTex),
    p.page.depth ≠ 3#2 ∧ q.page.depth ≠ 3#2 :=
  ⟨⟨⟨0, 0, 0⟩, ⟨0, 0⟩, ⟨0, 0⟩, ⟨0, 0⟩, ⟨0, 0⟩, ⟨0, 0⟩, ⟨0, 0, 2⟩, ⟨0, 0⟩, ⟨0, 0⟩, ⟨0, 0⟩, ⟨0, 0⟩⟩,
    ⟨⟨0, 0, 0⟩, ⟨0, 0⟩, ⟨0, 0⟩, ⟨0, 0⟩, ⟨0, 0, 0⟩, ⟨0, 0⟩, ⟨0, 0⟩, ⟨0, 0, 0⟩, ⟨0, 0, 0⟩, ⟨0, 0⟩, ⟨0, 0⟩, ⟨0, 0, 0⟩, ⟨0, 0⟩,
      ⟨0, 0⟩⟩, by decide, by decide⟩

theorem witness_RectanglesOfVariableSizePaintTheirPixels (p : RectVar) : (Instr.rectVSR p, true, true) ∈
    [(Instr.rectV p, false, false), (.rectVR p, true, false), (.rectVS p, false, true), (.rectVSR p, true, true)] :=
  witness_shapes.2.2.2.2.1 p

theorem witness_RectanglesOfFixedSizePaintTheirPixels (p : RectFix) : (Instr.rect16SR p, 16, true, true) ∈
    [(Instr.rect1 p, 1, false, false), (.rect1R p, 1, true, false), (.rect1S p, 1, false, true),
      (.rect1SR p, 1, true, true), (.rect8 p, 8, false, false), (.rect8R p, 8, true, false), (.rect8S p, 8, false, true),
      (.rect8SR p, 8, true, true), (.rect16 p, 16, false, false), (.rect16R p, 16, true, false),
      (.rect16S p, 16, false, true), (.rect16SR p, 16, true, true)] := by simp

theorem witness_TexturedRectanglesOfVariableSizePaintTheirTexels : ∃ (p : RectVarTex) (s : State),
    (Instr.rectVT p, false, false) ∈ [(Instr.rectVT p, false, false), (.rectVTR p, true, false), (.rectVTS p, false, true),
      (.rectVTSR p, true, true)] ∧ DepthGives s.texPage.depth .texP4 ∧
    p4Ctx = ⟨.texP4, false, false, p.pal, s.texPage, p.c, s.semiOp⟩ ∧ ReadsOutside s.drawArea p4Ctx :=
  ⟨⟨⟨128, 128, 128⟩, ⟨0, 0⟩, ⟨0, 0⟩, ⟨0#6, 32#9⟩, 4#16, 2#16⟩, { area8 with texPage := ⟨1#4, 0#1, 0#2⟩ }, by simp,
    .inl ⟨rfl, rfl⟩, rfl, witness_textured_premises.1⟩

theorem witness_TexturedRectanglesOfFixedSizePaintTheirTexels : ∃ (p : RectFixTex) (s : State),
    DepthGives s.texPage.depth .texD16 ∧ d16Ctx = ⟨.texD16, true, true, p.pal, s.texPage, p.c, s.semiOp⟩ ∧
    ReadsOutside s.drawArea d16Ctx ∧
    (Instr.rect16TSR p, 16, true, true) ∈ [(Instr.rect1T p, 1, false, false), (.rect1TR p, 1, true, false),
      (.rect1TS p, 1, false, true), (.rect1TSR p, 1, true, true), (.rect8T p, 8, false, false),
      (.rect8TR p, 8, true, false), (.rect8TS p, 8, false, true), (.rect8TSR p, 8, true, true),
      (.rect16T p, 16, false, false), (.rect16TR p, 16, true, false), (.rect16TS p, 16, false, true),
      (.rect16TSR p, 16, true, true)] :=
  ⟨⟨⟨128, 128, 128⟩, ⟨0, 0⟩, ⟨0, 0⟩, ⟨0#6, 0#9⟩⟩, { area8 with texPage := ⟨4#4, 1#1, 2#2⟩ }, .inr (.inr ⟨rfl, rfl⟩), rfl,
    witness_textured_premises.2.1, by simp⟩

theorem witness_TheReservedDepthIsRefusedBeforeDrawing :
    (∃ p : TriFlatTex, p.page.depth = 3#2) ∧ (∃ p : QuadFlatTex, p.page.depth = 3#2) ∧
    (∃ p : TriGouraudTex, p.page.depth = 3#2) ∧ (∃ p : QuadGouraudTex, p.page.depth = 3#2) ∧
    (∃ s : State, s.texPage.depth = 3#2) :=
  ⟨⟨⟨⟨0, 0, 0⟩, ⟨0, 0⟩, ⟨0, 0⟩, ⟨0, 0⟩, ⟨0, 0⟩, ⟨0, 0⟩, ⟨0, 0, 3⟩, ⟨0, 0⟩, ⟨0, 0⟩⟩, rfl⟩,
    ⟨⟨⟨0, 0, 0⟩, ⟨0, 0⟩, ⟨0, 0⟩, ⟨0, 0⟩, ⟨0, 0⟩, ⟨0, 0⟩, ⟨0, 0, 3⟩, ⟨0, 0⟩, ⟨0, 0⟩, ⟨0, 0⟩, ⟨0, 0⟩⟩, rfl⟩,
    ⟨⟨⟨0, 0, 0⟩, ⟨0, 0⟩, ⟨0, 0⟩, ⟨0, 0⟩, ⟨0, 0, 0⟩, ⟨0, 0⟩, ⟨0, 0⟩, ⟨0, 0, 3⟩, ⟨0, 0, 0⟩, ⟨0, 0⟩, ⟨0, 0⟩⟩, rfl⟩,
    ⟨⟨⟨0, 0, 0⟩, ⟨0, 0⟩, ⟨0, 0⟩, ⟨0, 0⟩, ⟨0, 0, 0⟩, ⟨0, 0⟩, ⟨0, 0⟩, ⟨0, 0, 3⟩, ⟨0, 0, 0⟩, ⟨0, 0⟩, ⟨0, 0⟩, ⟨0, 0, 0⟩, ⟨0, 0⟩,
      ⟨0, 0⟩⟩, rfl⟩, ⟨{ State.reset with texPage := ⟨0, 0, 3⟩ }, rfl⟩⟩

/-- The ends of the ranges of `m`: the first and the last row (column) but one. -/
theorem witness_PixelsAreDrawnRowsAscendingThenColumns :
    isOneSurface (.triF whiteTri) = true ∧ isOneSurface (.quadF ⟨⟨0, 0, 0⟩, ⟨0, 0⟩, ⟨0, 0⟩, ⟨0, 0⟩, ⟨0, 0⟩⟩) = false ∧
    (area8.drawArea.minY ≤ 0#9 ∧ 0#9 < area8.drawArea.maxY) ∧ (area8.drawArea.minY ≤ 6#9 ∧ 6#9 < area8.drawArea.maxY) ∧
    ((⟨0, 5, 7, 5⟩ : DrawArea).minY = (⟨0, 5, 7, 5⟩ : DrawArea).maxY ∧ (⟨0, 5, 7, 5⟩ : DrawArea).minX ≤ 6#10 ∧
      6#10 < (⟨0, 5, 7, 5⟩ : DrawArea).maxX) := by decide +kernel

/-- A vertex without colour. -/
def at_ (x y : Int) : Vert := ⟨x, y, ⟨0, 0, 0⟩, ⟨0, 0⟩⟩

/-- Vector T4: the two triangles on the edge `(6,2)` to `(2,6)`, their vertices in the vector's order, and the point `(4,4)`
of the shared edge inside both. -/
theorem witness_TrianglesThatShareAnEdgeCoverNoPixelTwice :
    edge 6 2 2 6 0 0 * edge 6 2 2 6 8 8 < 0 ∧
    [at_ 0 0, at_ 6 2, at_ 2 6].Perm [at_ 6 2, at_ 2 6, at_ 0 0] ∧
    [at_ 6 2, at_ 8 8, at_ 2 6].Perm [at_ 6 2, at_ 2 6, at_ 8 8] ∧
    (∃ t t', setup (at_ 0 0) (at_ 6 2) (at_ 2 6) = some t ∧ setup (at_ 6 2) (at_ 8 8) (at_ 2 6) = some t' ∧
      edge 6 2 2 6 4 4 = 0 ∧ 0 ≤ t.w0 4 4 ∧ 0 ≤ t.w1 4 4 ∧ 0 ≤ t.w2 4 4 ∧ 0 ≤ t'.w0 4 4 ∧ 0 ≤ t'.w1 4 4 ∧
      0 ≤ t'.w2 4 4) ∧
    (∃ t, setup (at_ 0 0) (at_ 4 0) (at_ 0 4) = some t ∧ 0 < t.w0 1 1 ∧ 0 < t.w1 1 1 ∧ 0 < t.w2 1 1 ∧
      covers (at_ 0 0) (at_ 4 0) (at_ 0 4) t.v0.x t.v0.y = true) := by
  refine ⟨by decide +kernel, by decide +kernel, by decide +kernel, ⟨_, _, rfl, rfl, ?_⟩, ⟨_, rfl, ?_⟩⟩ <;>
    decide +kernel

/-- A rectangle whose texture ends at 255, partly left of column 0; its first triangle and a pixel of it. -/
theorem witness_ARectangleIsItsTwoTriangles : 0 < 5 ∧ 0 < 3 ∧ 250 + 5 ≤ 255 ∧ 252 + 3 ≤ 255 ∧
    ∃ t, setup (at_ (-3) 0) (at_ 2 0) (at_ (-3) 3) = some t ∧ t.inside (-3) 0 = true :=
  ⟨by decide, by decide, by decide, by decide, _, rfl, by decide +kernel⟩

/-- Positions at the ends of the range. -/
theorem witness_TheFillerStaysInside32Bits : ∃ t, setup (vert ⟨0, 0⟩ ⟨0x400#11, 0x400#11⟩ ⟨0, 0, 0⟩ ⟨0, 0⟩)
    (vert ⟨0, 0⟩ ⟨0x3FF#11, 0x400#11⟩ ⟨0, 0, 0⟩ ⟨0, 0⟩) (vert ⟨0, 0⟩ ⟨0x400#11, 0x3FF#11⟩ ⟨0, 0, 0⟩ ⟨0, 0⟩) = some t ∧
    t.area = 4190209 ∧ t.inside (-1024) (-1024) = true :=
  ⟨_, rfl, by decide +kernel, by decide +kernel⟩

theorem witness_PixelArithmeticActsLaneByLane :
    (∃ lane : Half → Nat, lane = red5 ∨ lane = green5 ∨ lane = blue5) ∧
    written ⟨.shaded, true, true, ⟨0, 0⟩, ⟨0, 0, 0⟩, ⟨0, 0, 0⟩, 1#2⟩ 0x001F#16 0x03E0#16 = 0x03FF#16 ∧
    (∃ (column entry : Nat → Half) (ctx : Ctx), ctx.rt = .texP8 ∧
      column = (fun c => vramRead [] (64 * ctx.page.pageX.toNat + c) (256 * ctx.page.pageY.toNat + 255)) ∧
      entry = fun k => vramRead [] (16 * ctx.pal.px.toNat + k) ctx.pal.py.toNat) :=
  ⟨⟨red5, .inl rfl⟩, by decide +kernel,
    ⟨_, _, ⟨.texP8, true, true, ⟨63, 511⟩, ⟨15, 1, 1⟩, ⟨0, 0, 0⟩, 1#2⟩, rfl, rfl, rfl⟩⟩

end Sys2Proof.Tests
end

section
/-! PROOFS. Which steps stop (00_scope.md R6, 20_memory.md R76): no instruction does, and of the other accesses of the bus
only those at a unit outside the block. -/

namespace Sys2Proof.Machine

/-! ## Instructions -/

/-- Every instruction of the table answers a next state, from every state (60_exceptions.md R390). -/
theorem exec_completes (i : Instr) (s : State) : Completes (exec i s) := by
  rcases exec_cases i s with ⟨t, h, -⟩ | ⟨ch, v, f, -, h⟩ | ⟨t, u, a, h, -⟩ | ⟨v, rfl⟩ | ⟨v, rfl⟩ | ⟨size, next, rfl⟩ |
    ⟨size, next, rfl⟩
  · exact ⟨t, h⟩
  · obtain ⟨t, u, a, h', -⟩ := trigger_spec ch f
    exact ⟨_, h.trans h'⟩
  · exact ⟨_, h⟩
  · exact ⟨_, rfl⟩
  · exact ⟨_, rfl⟩
  · obtain ⟨t, h, -⟩ := execLlNext_spec size next s
    exact ⟨t, h⟩
  · obtain ⟨t, u, h, -⟩ := execLlEnd_spec size next s
    exact ⟨t, h⟩

/-! ## The other accesses of the bus -/

/-- The masked addresses that each row of the decode table takes (20_memory.md R76). -/
def BusTarget.Row (target : BusTarget) (m : Nat) : Prop :=
  match target with
  | .ram => m < 0x00200000
  | .expansion1 => 0x1F000000 ≤ m ∧ m < 0x1F800000
  | .ioOther => 0x1F801000 ≤ m ∧ m < 0x1F802000
  | .bios => 0x1FC00000 ≤ m ∧ m < 0x1FC80000
  | .cacheControl => 0xFFFE0000 ≤ m ∧ m < 0xFFFE0200
  | .unmapped => ¬ InSomeRow m

theorem busTarget_row (m : Word) : (busTarget m).Row m.toNat := by
  unfold busTarget
  dsimp only
  split_ifs with ram expansion1 ioOther bios cacheControl
  · exact ram
  · exact expansion1
  · exact ioOther
  · exact bios
  · exact cacheControl
  · simp [BusTarget.Row, InSomeRow, *]

/-- The access `a` answers a next state, or stops at a unit outside the block to which it belongs. -/
def StopsOnlyAtUnit (a : Access) (o : Out) : Prop :=
  Completes o ∨ ∃ part, o = .fault (.outsideBlock part a) ∧ AtUnit part a

theorem busOther_stopsOnlyAtUnit (a : Access) (s : State) : StopsOnlyAtUnit a (busOther a s) := by
  have row := busTarget_row (maskAddr a.addr)
  unfold busOther
  dsimp only
  generalize busTarget (maskAddr a.addr) = target at row ⊢
  cases target with
  | unmapped | ioOther => exact .inl ⟨_, rfl⟩
  | ram =>
    left
    dsimp only
    split
    · exact ⟨_, rfl⟩
    · split <;> exact ⟨_, rfl⟩
  | expansion1 =>
    obtain ⟨low, high⟩ := row
    dsimp only
    split
    · exact .inl ⟨_, rfl⟩
    · cases op : a.op with
      | read => exact .inl ⟨_, rfl⟩
      | write => exact .inr ⟨.expansion1, rfl, low, high, op⟩
  | bios =>
    dsimp only
    split
    · exact .inl ⟨_, rfl⟩
    · exact .inr ⟨.bios, rfl, row⟩
  | cacheControl =>
    obtain ⟨low, high⟩ := row
    dsimp only
    split
    · exact .inl ⟨_, rfl⟩
    · cases op : a.op with
      | read => exact .inr ⟨.cacheControl, rfl, low, high, op⟩
      | write => exact .inl ⟨_, rfl⟩

theorem rejectedAccess_stopsOnlyAtUnit (r : Reject) (a : Access) (s : State) :
    StopsOnlyAtUnit a (rejectedAccess r a s) := by
  cases r with
  | busError k => exact .inl ⟨_, rfl⟩
  | notRegister | notEnabled | length => exact busOther_stopsOnlyAtUnit a s

/-! ## Events -/

/-- A host access completes or stops at a unit outside the block. -/
theorem runEvent_bus_stopsOnlyAtUnit (a : Access) (s : State) : StopsOnlyAtUnit a (runEvent (.bus a) s) := by
  unfold runEvent
  dsimp only
  split
  · exact .inl (exec_completes _ s)
  · exact rejectedAccess_stopsOnlyAtUnit _ a s

/-- A word vector at the Rasterizer's own entry never stops a run (43_gp0_ingress.md R219). -/
theorem runEvent_execute_completes (w0 : Word) (args : List Word) (s : State) :
    Completes (runEvent (.execute w0 args) s) := by
  unfold runEvent
  dsimp only
  split
  · exact exec_completes _ s
  · exact ⟨_, rfl⟩

/-- Settles O8: the oldest event completes, unless it is an access that stops at a unit outside the block. -/
theorem aStepStopsOnlyAtUnitsOutsideTheBlock : Obligations.AStepStopsOnlyAtUnitsOutsideTheBlock := by
  intro s
  unfold step
  cases s.pending with
  | nil => exact .inl ⟨s, rfl⟩
  | cons e rest =>
    cases e with
    | bus a =>
      exact (runEvent_bus_stopsOnlyAtUnit a { s with pending := rest }).imp_right
        fun ⟨part, stops, atUnit⟩ => ⟨a, rest, part, rfl, stops, atUnit⟩
    | execute w0 args => exact .inl (runEvent_execute_completes w0 args { s with pending := rest })
    | setEnv area offset semi page => exact .inl ⟨_, rfl⟩
    | readPixel x y => exact .inl ⟨_, rfl⟩

end Sys2Proof.Machine
end

section
/-! PROOFS. The values after reset (10_state.md R39), and the bits of the interrupt register: the computed `master_flag`
(R46) and what a host write and a finish leave of each bit (R29). -/

namespace Sys2Proof.Machine

/-! ## The state after reset -/

@[simp] theorem State.reset_chan (ch : Chan) : State.reset.chan ch = ⟨0, 0, 0⟩ := by
  cases ch <;> rfl

/-- Settles O10: both memories and the command buffer are empty, and the cursor is 0. -/
theorem resetMeetsTheInvariant : Obligations.ResetMeetsTheInvariant :=
  ⟨rfl, rfl, rfl, rfl⟩

/-- Settles O11: the empty memories read 0, every channel's registers are 0, the other values stand in the record. -/
theorem resetLeavesTheListedValues : Obligations.ResetLeavesTheListedValues := by
  have idle : ∀ ch, ctlActive (State.reset.chan ch).ctl = false := by simp [ctlActive]
  have low : masterFlag State.reset.dmaInterrupt = false := by decide
  exact ⟨fun _ => rfl, fun _ _ => rfl, fun ch => ⟨State.reset_chan ch, idle ch⟩, rfl, rfl, low, rfl, rfl, rfl, rfl, rfl,
    rfl, rfl⟩

/-! ## The bits of the interrupt register -/

/-- A bit of the register after a host write (40_dma_registers.md R155): stored below bit 24, a flag there and above. -/
theorem interruptWrite_getLsbD (i : BitVec 31) (v : Word) (b : Nat) :
    (interruptWrite i v).getLsbD b = if b < 24 then v.getLsbD b else i.getLsbD b && !v.getLsbD b := by
  unfold interruptWrite intFlags
  rw [BitVec.getLsbD_append]
  split
  · simp [*]
  · rename_i high
    have index : 24 + (b - 24) = b := by omega
    simp only [BitVec.getLsbD_and, BitVec.getLsbD_not, BitVec.getLsbD_extractLsb', index]
    by_cases top : b < 31
    · simp [show b - 24 < 7 by omega]
    · simp [BitVec.getLsbD_of_ge i b (by omega)]

/-- The word that a read returns: the stored bits, and `master_flag` above them. -/
theorem interruptWord_getLsbD (i : BitVec 31) {b : Nat} (low : b < 31) : (interruptWord i).getLsbD b = i.getLsbD b := by
  unfold interruptWord
  rw [BitVec.getLsbD_append, if_pos low]

theorem interruptWord_bit31 (i : BitVec 31) : (interruptWord i).getLsbD 31 = masterFlag i := by
  unfold interruptWord
  rw [BitVec.getLsbD_append]
  simp

/-- `master_flag` is `force`, or `master_enable` with a channel whose flag and enable are both set (R46). -/
theorem masterFlag_iff (i : BitVec 31) :
    masterFlag i = true ↔ (i.getLsbD 15 = true ∨ (i.getLsbD 23 = true ∧
      ∃ k, k < 7 ∧ i.getLsbD (24 + k) = true ∧ i.getLsbD (16 + k) = true)) := by
  have both : (intFlags i &&& intEnables i) ≠ 0 ↔
      ∃ k, k < 7 ∧ i.getLsbD (24 + k) = true ∧ i.getLsbD (16 + k) = true := by
    rw [ne_eq, BitVec.ofNat_eq_ofNat, BitVec.zero_iff_eq_false]
    simp only [intFlags, intEnables, BitVec.getLsbD_and, BitVec.getLsbD_extractLsb', not_forall, Bool.not_eq_false,
      Bool.and_eq_true, decide_eq_true_eq]
    exact exists_congr fun k => by tauto
  simp [masterFlag, intForce, intMasterEnable, ← both]

/-- Bit 31 of a host write is ignored (R46). -/
theorem interruptWrite_flip_bit31 (i : BitVec 31) (v : Word) :
    interruptWrite i (v ^^^ 0x80000000#32) = interruptWrite i v := by
  have below : ∀ b, b < 31 → (v ^^^ 0x80000000#32).getLsbD b = v.getLsbD b := by
    intro b low
    have clear : (0x80000000#32).getLsbD b = false := by
      interval_cases b <;> rfl
    rw [BitVec.getLsbD_xor, clear, Bool.xor_false]
  refine BitVec.eq_of_getLsbD_eq fun b low => ?_
  rw [interruptWrite_getLsbD, interruptWrite_getLsbD, below b low]

/-- Settles O27: the flag from `masterFlag_iff`, the read from the word's bits, the write by its bits below 31. -/
theorem theMasterFlagIsComputedAndNotStored : Obligations.TheMasterFlagIsComputedAndNotStored := by
  intro v s
  refine ⟨masterFlag_iff _, ⟨interruptWord s.dmaInterrupt, rfl, interruptWord_bit31 _,
    fun _ low => interruptWord_getLsbD _ low⟩, ?_⟩
  show Host.Outcome.next (s.setInterrupt (interruptWrite s.dmaInterrupt (v ^^^ 0x80000000#32))).done = _
  rw [interruptWrite_flip_bit31]
  rfl

end Sys2Proof.Machine
end

section
/-! PROOFS. What an instruction can do to the DMA registers and the interrupt flags (10_state.md R25 to R29): every
instruction but the two global register writes is a store or none, then words that move, then an end. -/

namespace Sys2Proof.Machine

/-! ## One form for every instruction -/

/-- The state from which the instruction `i` goes on: a channel register write stores its value first, every other
instruction starts as the state is. -/
def StartsFrom (i : Instr) (s f : State) : Prop := f = s ∨ ∃ ch v, StoresTo ch v s i f

/-- The instruction, from where it starts, moves words, ends like a transfer, and leaves some list cursor. -/
def MovesAndEnds (i : Instr) (s t : State) : Prop :=
  ∃ f u e a, StartsFrom i s f ∧ Moved f u ∧ EndsLike e u ∧ t = e.setListAddr a

/-- What a GP0 word changes is a movement of words. -/
theorem GpuOnly.moved {s t : State} (h : GpuOnly s t) (vram : Vram.wf s.vram = true → Vram.wf t.vram = true)
    (buf : bufferFramed s.gp0Buf = true → bufferFramed t.gp0Buf = true) : Moved s t :=
  ⟨h.chans, h.dmaControl, h.dmaInterrupt, h.irqEvents, h.pending, fun ram => by rwa [h.ram], vram, buf⟩

theorem MovesAndEnds.of_transfer {i : Instr} {s f t : State} {o : Out} (start : StartsFrom i s f) (h : TransferSpec o f)
    (ht : o = .next t) : MovesAndEnds i s t := by
  obtain ⟨e, u, a, ho, moved, ends, -⟩ := h
  rw [ho] at ht
  cases ht
  exact ⟨f, u, e, a, start, moved, ends, rfl⟩

theorem MovesAndEnds.of_ends {i : Instr} {s u t : State} (moved : Moved s u) (ends : EndsLike t u) :
    MovesAndEnds i s t :=
  ⟨s, u, t, t.listAddr, .inl rfl, moved, ends, (setListAddr_self t rfl).symm⟩

/-- Every instruction but the writes of `dma_control` and `dma_interrupt` moves words and ends. -/
theorem exec_movesAndEnds {i : Instr} {s t : State} (h : exec i s = .next t) :
    (∃ v, i = .dmaWrControl v) ∨ (∃ v, i = .dmaWrInterrupt v) ∨ MovesAndEnds i s t := by
  rcases exec_cases i s with ⟨u, hu, gpu, vram, buf⟩ | ⟨ch, v, f, stores, hf⟩ | transfer | control | interrupt |
    ⟨size, next, rfl⟩ | ⟨size, next, rfl⟩
  · obtain rfl : u = t := by rw [hu] at h; cases h; rfl
    exact .inr (.inr (.of_ends (gpu.moved vram buf) (.inl rfl)))
  · exact .inr (.inr (.of_transfer (.inr ⟨ch, v, stores⟩) (trigger_spec ch f) (hf ▸ h)))
  · exact .inr (.inr (.of_transfer (.inl rfl) transfer h))
  · exact .inl control
  · exact .inr (.inl interrupt)
  · obtain ⟨u, hu, -, moved⟩ := execLlNext_spec size next s
    obtain rfl : u = t := by rw [show execLlNext size next s = .next t from h] at hu; cases hu; rfl
    exact .inr (.inr (.of_ends moved (.inl rfl)))
  · obtain ⟨e, u, he, -, moved, ends⟩ := execLlEnd_spec size next s
    obtain rfl : e = t := by rw [show execLlEnd size next s = .next t from h] at he; cases he; rfl
    exact .inr (.inr (.of_ends moved (ends.imp_right fun finish => .inl ⟨.gpu, finish⟩)))

/-! ## Interrupt flags -/

/-- Setting a flag clears none. -/
theorem intFlag_interruptSetFlag {i : BitVec 31} {ch : Chan} (ch' : Chan) (h : intFlag i ch = true) :
    intFlag (interruptSetFlag i ch') ch = true := by
  unfold intFlag interruptSetFlag at *
  rw [BitVec.getLsbD_or, h, Bool.true_or]

/-- No end of a transfer clears a flag (41_dma_block_transfer.md R186, 42_dma_linked_list.md R205). -/
theorem EndsLike.keeps_intFlag {t u : State} (h : EndsLike t u) {ch : Chan} (set : intFlag u.dmaInterrupt ch = true) :
    intFlag t.dmaInterrupt ch = true := by
  rcases h with rfl | ⟨ch', rfl⟩ | rfl
  · exact set
  · rw [transferFinished_dmaInterrupt]
    split
    · exact intFlag_interruptSetFlag ch' set
    · exact set
  · exact intFlag_interruptSetFlag .gpu set

theorem StartsFrom.dmaInterrupt {i : Instr} {s f : State} (h : StartsFrom i s f) : f.dmaInterrupt = s.dmaInterrupt := by
  rcases h with rfl | ⟨ch, v, ⟨-, rfl⟩ | ⟨-, rfl⟩ | ⟨-, rfl⟩⟩ <;> rfl

theorem MovesAndEnds.keeps_intFlag {i : Instr} {s t : State} (h : MovesAndEnds i s t) {ch : Chan}
    (set : intFlag s.dmaInterrupt ch = true) : intFlag t.dmaInterrupt ch = true := by
  obtain ⟨f, u, e, a, start, ⟨-, -, interrupt, -⟩, ends, rfl⟩ := h
  have set' : intFlag u.dmaInterrupt ch = true := by rwa [interrupt, start.dmaInterrupt]
  exact ends.keeps_intFlag set'

/-- A flag after a host write (40_dma_registers.md R155): kept unless its bit is written 1. -/
theorem intFlag_interruptWrite (i : BitVec 31) (v : Word) (ch : Chan) :
    intFlag (interruptWrite i v) ch = (intFlag i ch && !v.getLsbD (24 + ch.num)) := by
  unfold intFlag
  rw [interruptWrite_getLsbD, if_neg (by omega)]

/-- Settles O13: an end of a transfer only sets flags, and the host's write clears those written 1. -/
theorem onlyAHostWriteOfOneClearsAFlag : Obligations.OnlyAHostWriteOfOneClearsAFlag := by
  intro i s t ch h set cleared
  rcases exec_movesAndEnds h with ⟨v, rfl⟩ | ⟨v, rfl⟩ | moves
  · cases h
    cases set.symm.trans cleared
  · cases h
    refine ⟨v, rfl, ?_⟩
    have bit : intFlag (interruptWrite s.dmaInterrupt v) ch = false := cleared
    simpa [intFlag_interruptWrite, set] using bit
  · rw [moves.keeps_intFlag set] at cleared
    cases cleared

/-! ## Channel registers -/

/-- Every bit of `y` is a bit of `x`, and only the bits 24 and 28, `enable` and `manual_trigger`, can have gone. -/
def OnlyStartBitsCleared (x y : Word) : Prop :=
  ∀ b, (b ≠ 24 → b ≠ 28 → y.getLsbD b = x.getLsbD b) ∧ (y.getLsbD b = true → x.getLsbD b = true)

theorem OnlyStartBitsCleared.refl (x : Word) : OnlyStartBitsCleared x x := fun _ => ⟨fun _ _ => rfl, id⟩

/-- A mask that holds every bit but 24 and 28 clears only these. -/
theorem OnlyStartBitsCleared.of_mask {mask : Word} (h : ∀ b, b < 32 → b ≠ 24 → b ≠ 28 → mask.getLsbD b = true)
    (x : Word) : OnlyStartBitsCleared x (x &&& mask) := by
  intro b
  rw [BitVec.getLsbD_and]
  refine ⟨fun not24 not28 => ?_, fun both => ((Bool.and_eq_true ..).mp both).1⟩
  by_cases low : b < 32
  · rw [h b low not24 not28, Bool.and_true]
  · rw [BitVec.getLsbD_of_ge x b (by omega), Bool.false_and]

theorem ctlClearStart_onlyStartBits (x : Word) : OnlyStartBitsCleared x (ctlClearStart x) :=
  .of_mask (by decide) x

theorem ctlClearEnable_onlyStartBits (x : Word) : OnlyStartBitsCleared x (ctlClearEnable x) :=
  .of_mask (by decide) x

/-- A channel from `r` to `r'` has kept its base and its count, and of its control word has lost start bits only. -/
def OnlyStopped (r r' : ChanRegs) : Prop :=
  r'.base = r.base ∧ r'.block = r.block ∧ OnlyStartBitsCleared r.ctl r'.ctl

/-- An end of a transfer stops channels and stores nothing to them (R186, R205). -/
theorem EndsLike.onlyStopped {t u : State} (h : EndsLike t u) (ch : Chan) : OnlyStopped (u.chan ch) (t.chan ch) := by
  have same : ∀ r, OnlyStopped r r := fun r => ⟨rfl, rfl, .refl _⟩
  have stopped : ∀ (ch' : Chan) (ctl : Word), OnlyStartBitsCleared (u.chan ch').ctl ctl →
      OnlyStopped (u.chan ch) ((u.chans.set ch' { u.chan ch' with ctl := ctl }).get ch) := by
    intro ch' ctl hctl
    rw [PerChan.get_set]
    split
    · rename_i e
      subst e
      exact ⟨rfl, rfl, hctl⟩
    · exact same _
  rcases h with rfl | ⟨ch', rfl⟩ | rfl
  · exact same _
  · unfold State.chan
    rw [transferFinished_chans]
    exact stopped ch' _ (ctlClearStart_onlyStartBits _)
  · exact stopped .gpu _ (ctlClearEnable_onlyStartBits _)

theorem EndsLike.dmaControl {t u : State} (h : EndsLike t u) : t.dmaControl = u.dmaControl := by
  rcases h with rfl | ⟨ch, rfl⟩ | rfl
  · rfl
  · exact transferFinished_dmaControl ch u
  · rfl

/-- The register of channel `ch` that no store of `i` names is as it was. -/
theorem StartsFrom.chan {i : Instr} {s f : State} (h : StartsFrom i s f) (ch : Chan) :
    ((∀ v, i ≠ .dmaWrBase ch v) → (f.chan ch).base = (s.chan ch).base) ∧
    ((∀ v, i ≠ .dmaWrBlock ch v) → (f.chan ch).block = (s.chan ch).block) ∧
    ((∀ v, i ≠ .dmaWrChctl ch v) → (f.chan ch).ctl = (s.chan ch).ctl) := by
  rcases h with rfl | ⟨ch', v, stores⟩
  · exact ⟨fun _ => rfl, fun _ => rfl, fun _ => rfl⟩
  · by_cases e : ch = ch'
    · subst e
      rcases stores with ⟨rfl, rfl⟩ | ⟨rfl, rfl⟩ | ⟨rfl, rfl⟩ <;> simp
    · have other : f.chan ch = s.chan ch := by
        rcases stores with ⟨-, rfl⟩ | ⟨-, rfl⟩ | ⟨-, rfl⟩
        all_goals exact State.chan_setChan_other s _ e
      rw [other]
      exact ⟨fun _ => rfl, fun _ => rfl, fun _ => rfl⟩

theorem StartsFrom.dmaControl {i : Instr} {s f : State} (h : StartsFrom i s f) : f.dmaControl = s.dmaControl := by
  rcases h with rfl | ⟨ch, v, ⟨-, rfl⟩ | ⟨-, rfl⟩ | ⟨-, rfl⟩⟩ <;> rfl

/-- No instruction but its own write changes a DMA register; of a control word the others can only clear start bits. -/
theorem exec_dmaRegisters {i : Instr} {s t : State} (h : exec i s = .next t) (ch : Chan) :
    ((∀ v, i ≠ .dmaWrBase ch v) → (t.chan ch).base = (s.chan ch).base) ∧
    ((∀ v, i ≠ .dmaWrBlock ch v) → (t.chan ch).block = (s.chan ch).block) ∧
    ((∀ v, i ≠ .dmaWrControl v) → t.dmaControl = s.dmaControl) ∧
    ((∀ v, i ≠ .dmaWrChctl ch v) → OnlyStartBitsCleared (s.chan ch).ctl (t.chan ch).ctl) := by
  rcases exec_movesAndEnds h with ⟨v, rfl⟩ | ⟨v, rfl⟩ | ⟨f, u, e, a, start, ⟨chans, control, -⟩, ends, rfl⟩
  · cases h
    exact ⟨fun _ => rfl, fun _ => rfl, fun own => absurd rfl (own v), fun _ => .refl _⟩
  · cases h
    exact ⟨fun _ => rfl, fun _ => rfl, fun _ => rfl, fun _ => .refl _⟩
  · obtain ⟨base, block, ctl⟩ := start.chan ch
    have moved : u.chan ch = f.chan ch := congrArg (PerChan.get · ch) chans
    obtain ⟨base', block', ctl'⟩ := ends.onlyStopped ch
    rw [moved] at base' block' ctl'
    refine ⟨fun own => base'.trans (base own), fun own => block'.trans (block own),
      fun _ => ends.dmaControl.trans (control.trans start.dmaControl), fun own => ?_⟩
    rw [← ctl own]
    exact ctl'

end Sys2Proof.Machine
end

section
/-! PROOFS. By what an instruction changes the drawing environment (10_state.md R30 to R33, 48_line_env.md R378 to
R381). -/

namespace Sys2Proof.Machine

/-- The state after a command, a word or a transfer is the one it answers. -/
theorem EnvMoved.of_next {brought : BitVec 8 → Prop} {o : Out} {s t : State} (h : o = .next t)
    (ex : ∃ u, o = .next u ∧ EnvMoved brought s u) : EnvMoved brought s t := by
  obtain ⟨u, hu, moved⟩ := ex
  rw [hu] at h
  cases h
  exact moved

/-- A command byte that RAM holds is brought by an instruction that feeds GP0. -/
theorem bringsCommand_of_ram {i : Instr} {s : State} {op : BitVec 8} (feeds : FeedsGp0 i) (ram : RamHolds s.ram op) :
    BringsCommand [op] i s := by
  obtain ⟨a, ha⟩ := ram
  exact .inr (.inr ⟨feeds, a, List.mem_singleton.2 ha⟩)

theorem BringsCommand.mono {ops ops' : List (BitVec 8)} {i : Instr} {s : State} (h : BringsCommand ops i s)
    (sub : ∀ op ∈ ops, op ∈ ops') : BringsCommand ops' i s := by
  rcases h with ⟨w0, enc, mem⟩ | ⟨w, word, first, mem⟩ | ⟨feeds, a, mem⟩
  · exact .inl ⟨w0, enc, sub _ mem⟩
  · exact .inr (.inl ⟨w, word, first, sub _ mem⟩)
  · exact .inr (.inr ⟨feeds, a, sub _ mem⟩)

/-- A register write moves the environment as its trigger does from the state with the value stored: by command words in
RAM, on the Gpu channel only (40_dma_registers.md R162). -/
theorem StoresTo.environment {ch : Chan} {v : Word} {s f t : State} {i : Instr} (stores : StoresTo ch v s i f)
    (h : exec i s = .next t) : EnvMoved (fun op => BringsCommand [op] i s) s t := by
  have feeds : ch = .gpu → FeedsGp0 i := by
    rintro rfl
    exact .inl ⟨v, stores.imp And.left (Or.imp And.left And.left)⟩
  obtain ⟨runs, ram, stored⟩ : exec i s = trigger ch f ∧ f.ram = s.ram ∧
      EnvMoved (fun op => BringsCommand [op] i s) s f := by
    rcases stores with ⟨rfl, rfl⟩ | ⟨rfl, rfl⟩ | ⟨rfl, rfl⟩ <;> exact ⟨rfl, rfl, .of_eq rfl rfl rfl rfl⟩
  have triggered := EnvMoved.of_next (runs ▸ h) (trigger_environment ch f)
  exact stored.trans (triggered.mono fun op ⟨gpu, holds⟩ => bringsCommand_of_ram (feeds gpu) (ram ▸ holds))

/-- Every instruction changes a part of the environment only if it brings a command of that part. -/
theorem exec_environment {i : Instr} {s t : State} (h : exec i s = .next t) :
    EnvMoved (fun op => BringsCommand [op] i s) s t := by
  by_cases gp0 : isGp0 i = true
  · rw [exec_gp0 gp0] at h
    refine (EnvMoved.of_next h (execCommand_environment i s)).mono fun op command => ?_
    obtain ⟨w0, enc, byte⟩ := command.encode
    exact .inl ⟨w0, enc, List.mem_singleton.2 byte⟩
  cases i
  case gp0Wr w =>
    exact (EnvMoved.of_next h (pushGp0_environment w s)).mono fun op ⟨first, byte⟩ =>
      .inr (.inl ⟨w, rfl, first, List.mem_singleton.2 byte⟩)
  case dmaWrBase ch v => exact StoresTo.environment (.inl ⟨rfl, rfl⟩) h
  case dmaWrBlock ch v => exact StoresTo.environment (.inr (.inl ⟨rfl, rfl⟩)) h
  case dmaWrChctl ch v => exact StoresTo.environment (.inr (.inr ⟨rfl, rfl⟩)) h
  case xferBlockFromram ch ctl =>
    refine (EnvMoved.of_next h (blockFromRam_environment ..)).mono fun op ⟨gpu, holds⟩ => ?_
    subst gpu
    exact bringsCommand_of_ram (.inr (.inl ⟨ctl, .inl rfl⟩)) holds
  case xferList ctl =>
    exact (EnvMoved.of_next h (linkedList_environment _ s)).mono fun op holds =>
      bringsCommand_of_ram (.inr (.inl ⟨ctl, .inr rfl⟩)) holds
  case llNext size next =>
    obtain ⟨u, hu, -, moved⟩ := execLlNext_environment size next s
    exact (EnvMoved.of_next h ⟨u, hu, moved⟩).mono fun op holds =>
      bringsCommand_of_ram (.inr (.inr ⟨size, next, .inl rfl⟩)) holds
  case llEnd size next =>
    exact (EnvMoved.of_next h (execLlEnd_environment size next s)).mono fun op holds =>
      bringsCommand_of_ram (.inr (.inr ⟨size, next, .inr rfl⟩)) holds
  case xferBlockToram ch ctl =>
    exact EnvMoved.of_next h ⟨_, rfl, blockToRam_environment ..⟩
  case xferBlockOtc ctl =>
    exact EnvMoved.of_next h ⟨_, rfl, .of_eq (by simp) (by simp) (by simp) (by simp)⟩
  case dmaRdBase | dmaRdBlock | dmaRdChctl | dmaWrControl | dmaWrInterrupt | dmaRdControl | dmaRdInterrupt |
      dmaUnmapped | xferInvalid =>
    cases h
    exact .of_eq rfl rfl rfl rfl
  all_goals exact absurd rfl gp0

/-- Settles O14: the registers by `exec_dmaRegisters`, the environment by `exec_environment`. -/
theorem dmaRegistersChangeOnlyByTheirOwnWrites : Obligations.DmaRegistersChangeOnlyByTheirOwnWrites := by
  intro i s t ch h
  obtain ⟨base, block, control, ctl⟩ := exec_dmaRegisters h ch
  obtain ⟨area, offset, mode⟩ := exec_environment h
  refine ⟨base, block, control, ctl, fun changed => ?_, offset, mode⟩
  rcases area changed with corner | corner
  · exact corner.mono (by simp)
  · exact corner.mono (by simp)

end Sys2Proof.Machine
end

section
/-! PROOFS. `dma_control` gates nothing (10_state.md R28): every operation but its own read and write does on a state
with another `dma_control` what it does on the state, and keeps the other value. -/

namespace Sys2Proof.Machine

/-- The state with another value of `dma_control`. -/
def State.withControl (c : Word) (s : State) : State := { s with dmaControl := c }

/-- The operation does the same whatever `dma_control` holds, and passes it on. -/
def Ungated (f : State → Out) : Prop :=
  ∀ (c : Word) (s : State), f (s.withControl c) = mapNext (f s) (State.withControl c)

/-- The same of a state update. -/
def UngatedUpdate (f : State → State) : Prop :=
  ∀ (c : Word) (s : State), f (s.withControl c) = (f s).withControl c

/-! ## Composition -/

theorem UngatedUpdate.next {f : State → State} (h : UngatedUpdate f) : Ungated fun s => .next (f s) :=
  fun c s => congrArg Host.Outcome.next (h c s)

theorem UngatedUpdate.comp {f g : State → State} (hf : UngatedUpdate f) (hg : UngatedUpdate g) :
    UngatedUpdate fun s => f (g s) :=
  fun c s => (congrArg f (hg c s)).trans (hf c (g s))

theorem thenIfOk_ungated {f g : State → Out} (hf : Ungated f) (hg : Ungated g) : Ungated fun s => thenIfOk (f s) g := by
  intro c s
  dsimp only
  rw [hf c s]
  cases f s with
  | next t =>
    have same : (t.withControl c).result = t.result := rfl
    simp only [mapNext_next, thenIfOk_next, same]
    split
    · rfl
    · exact hg c t
  | fault r => rfl
  | refused r => rfl

theorem mapNext_ungated {f : State → Out} {g : State → State} (hf : Ungated f) (hg : UngatedUpdate g) :
    Ungated fun s => mapNext (f s) g := by
  intro c s
  dsimp only
  rw [hf c s]
  cases f s with
  | next t => exact congrArg Host.Outcome.next (hg c t)
  | fault r => rfl
  | refused r => rfl

/-! ## GP0 commands and words -/

theorem polygonTextured_ungated (op : BitVec 8) (raw semi : Bool) (col : Color) (tex : TexInfo) (v0 v1 v2 : Vert)
    (v3 : Option Vert) : Ungated (polygonTextured op raw semi col tex v0 v1 v2 v3) := by
  intro c s
  unfold polygonTextured
  cases texturedType tex.page.depth <;> rfl

theorem rectTextured_ungated (op : BitVec 8) (raw semi : Bool) (col : Color) (v : Vertex) (t : Uv) (pal : Palette)
    (w h : Nat) : Ungated (rectTextured op raw semi col v t pal w h) := by
  intro c s
  have page : (s.withControl c).texPage = s.texPage := rfl
  unfold rectTextured
  rw [page]
  cases texturedType s.texPage.depth <;> rfl

theorem execCommand_ungated (i : Instr) : Ungated (execCommand i) := by
  intro c s
  cases i
  case triFT | triFTR | triFTS | triFTSR | quadFT | quadFTR | quadFTS | quadFTSR | triGT | triGTR | triGTS | triGTSR |
      quadGT | quadGTR | quadGTS | quadGTSR =>
    exact polygonTextured_ungated ..
  case rectVT | rectVTR | rectVTS | rectVTSR | rect1T | rect1TR | rect1TS | rect1TSR | rect8T | rect8TR | rect8TS |
      rect8TSR | rect16T | rect16TR | rect16TS | rect16TSR =>
    exact rectTextured_ungated ..
  all_goals rfl

theorem executeWords_ungated (w0 : Word) (args : List Word) : Ungated (executeWords w0 args) := by
  intro c s
  unfold executeWords
  cases decodeGp0 w0 args with
  | ok i => exact execCommand_ungated i c s
  | error e => rfl

theorem pushGp0_ungated (w : Word) : Ungated (pushGp0 w) := by
  intro c s
  have buf : (s.withControl c).gp0Buf = s.gp0Buf := rfl
  unfold pushGp0
  rw [buf]
  cases s.gp0Buf with
  | nil =>
    cases packetLen w with
    | error e => exact execCommand_ungated _ c s
    | ok n =>
      dsimp only
      split
      · exact executeWords_ungated w [] c s
      · rfl
  | cons w0 args =>
    dsimp only
    cases packetLen w0 with
    | error e => rfl
    | ok n =>
      dsimp only
      split
      · exact executeWords_ungated w0 (args ++ [w]) c { s with gp0Buf := [] }
      · rfl

theorem markTransferFault_ungated : UngatedUpdate markTransferFault := by
  intro c s
  have result : (s.withControl c).result = s.result := rfl
  unfold markTransferFault
  rw [result]
  cases s.result with
  | error e =>
    dsimp only
    split <;> rfl
  | noneYet | done | value v => rfl

theorem transferPush_ungated (w : Word) : Ungated (transferPush w) :=
  mapNext_ungated (pushGp0_ungated w) markTransferFault_ungated

/-! ## Transfers -/

theorem transferFinished_ungated (ch : Chan) : UngatedUpdate (transferFinished ch) := by
  intro c s
  have interrupt : (s.withControl c).dmaInterrupt = s.dmaInterrupt := rfl
  unfold transferFinished
  dsimp only
  rw [State.setCtl_dmaInterrupt, State.setCtl_dmaInterrupt, interrupt]
  split <;> rfl

theorem sendToPort_ungated (ch : Chan) (w : Word) : Ungated (sendToPort ch w) := by
  intro c s
  unfold sendToPort
  split
  · exact transferPush_ungated w c s
  · rfl

theorem blockFromRam_ungated (ch : Chan) (step : Word) (n : Nat) (addr : Word) :
    Ungated (blockFromRam ch step n addr) := by
  induction n generalizing addr with
  | zero => exact (transferFinished_ungated ch).next
  | succ n ih => exact thenIfOk_ungated (fun c s => sendToPort_ungated ch _ c s) (ih (nextAddr step addr))

theorem receiveWord_ungated (ch : Chan) (addr : Word) : UngatedUpdate (receiveWord ch addr) := by
  intro c s
  have ready : (s.withControl c).devIn = s.devIn := rfl
  unfold receiveWord devRecv
  rw [ready]
  cases s.devIn.get ch <;> rfl

theorem blockToRam_ungated (ch : Chan) (step : Word) (n : Nat) (addr : Word) :
    UngatedUpdate (blockToRam ch step n addr) := by
  induction n generalizing addr with
  | zero => exact transferFinished_ungated ch
  | succ n ih => exact (ih (nextAddr step addr)).comp (receiveWord_ungated ch addr)

theorem execXferBlockOtc_ungated (ctl : Word) : Ungated (execXferBlockOtc ctl) :=
  fun c s => congrArg Host.Outcome.next (transferFinished_ungated .otc c (otcState ctl s))

theorem pushPayload_ungated (addr : Word) (n k : Nat) : Ungated (pushPayload addr n k) := by
  induction n generalizing k with
  | zero => exact fun _ _ => rfl
  | succ n ih => exact thenIfOk_ungated (fun c s => transferPush_ungated _ c s) (ih (k + 1))

theorem execLlNext_ungated (size : Byte) (next : BitVec 23) : Ungated (execLlNext size next) :=
  thenIfOk_ungated (fun c s => pushPayload_ungated s.listAddr size.toNat 1 c s) fun _ _ => rfl

theorem execLlEnd_ungated (size : Byte) (next : BitVec 23) : Ungated (execLlEnd size next) :=
  thenIfOk_ungated (fun c s => pushPayload_ungated s.listAddr size.toNat 1 c s) (transferFinished_ungated .gpu).next

theorem walkList_ungated (cap : Nat) : Ungated (walkList cap) := by
  induction cap with
  | zero => exact fun _ _ => rfl
  | succ cap ih =>
    intro c s
    have header : ramRead32 (s.withControl c).ram (s.withControl c).listAddr.toNat = ramRead32 s.ram s.listAddr.toNat :=
      rfl
    unfold walkList
    dsimp only
    rw [header]
    split
    · exact execLlEnd_ungated _ _ c s
    · exact thenIfOk_ungated (execLlNext_ungated _ _) ih c s

theorem linkedList_ungated (cap : Nat) : Ungated (linkedList cap) :=
  mapNext_ungated (fun c s => walkList_ungated cap c (s.setListAddr (startAddr (s.chan .gpu).base))) fun _ _ => rfl

theorem doTransfer_ungated (ch : Chan) : Ungated (doTransfer ch) := by
  intro c s
  have regs : (s.withControl c).chan ch = s.chan ch := rfl
  unfold doTransfer
  dsimp only
  rw [regs]
  cases selectXfer ch (s.chan ch).ctl with
  | fromRam => exact blockFromRam_ungated ch _ _ _ c s
  | toRam => exact (blockToRam_ungated ch _ _ _).next c s
  | otc => exact execXferBlockOtc_ungated _ c s
  | list => exact linkedList_ungated Config.llCap c s
  | invalid => rfl

theorem trigger_ungated (ch : Chan) : Ungated (trigger ch) := by
  intro c s
  have regs : (s.withControl c).chan ch = s.chan ch := rfl
  unfold trigger
  rw [regs]
  split
  · exact doTransfer_ungated ch c s
  · rfl

/-! ## Instructions -/

/-- Settles O15: GP0 commands, words and transfers are ungated, and no other instruction but the two accesses of
`dma_control` reads it. -/
theorem dmaControlGatesNothing : Obligations.DmaControlGatesNothing := by
  intro i c s noWrite noRead
  change exec i (s.withControl c) = mapNext (exec i s) (State.withControl c)
  by_cases gp0 : isGp0 i = true
  · rw [exec_gp0 gp0, exec_gp0 gp0]
    exact execCommand_ungated i c s
  cases i
  case dmaWrControl v => exact absurd rfl (noWrite v)
  case dmaRdControl => exact absurd rfl noRead
  case dmaWrBase ch v => exact trigger_ungated ch c (s.setBase ch (v.extractLsb' 0 24))
  case dmaWrBlock ch v => exact trigger_ungated ch c (s.setBlock ch v)
  case dmaWrChctl ch v => exact trigger_ungated ch c (s.setCtl ch v)
  case gp0Wr w => exact pushGp0_ungated w c s
  case xferBlockFromram ch ctl => exact blockFromRam_ungated ch _ _ _ c s
  case xferBlockToram ch ctl => exact (blockToRam_ungated ch _ _ _).next c s
  case xferBlockOtc ctl => exact execXferBlockOtc_ungated ctl c s
  case xferList ctl => exact linkedList_ungated Config.llCap c s
  case llNext size next => exact execLlNext_ungated size next c s
  case llEnd size next => exact execLlEnd_ungated size next c s
  case dmaRdBase | dmaRdBlock | dmaRdChctl | dmaWrInterrupt | dmaRdInterrupt | dmaUnmapped | xferInvalid => rfl
  all_goals exact absurd rfl gp0

end Sys2Proof.Machine
end

section
/-! PROOFS. Drawing stays in the drawing area (10_state.md R30): each visit of a scan changes its own pixel only, and
every scan visits pixels of the area only. -/

namespace Sys2Proof.Machine

/-! ## Scans -/

/-- What a loop keeps: a property that every round of its range keeps. -/
theorem forRange_keeps_within {α : Type} (P : α → Prop) (f : Nat → α → α) (n lo : Nat)
    (hf : ∀ i, lo ≤ i → i < lo + n → ∀ a, P a → P (f i a)) (a : α) (h : P a) : P (forRange n lo f a) := by
  induction n generalizing lo a with
  | zero => exact h
  | succ n ih =>
    exact ih (lo + 1) (fun i low high => hf i (by omega) (by omega)) (f lo a) (hf lo le_rfl (by omega) a h)

/-- What a scan keeps: a property that every visit of a pixel of its box keeps. -/
theorem scanBox_keeps (P : List (Nat × BitVec 16) → Prop) {x0 x1 y0 y1 : Int} (hx0 : 0 ≤ x0) (hy0 : 0 ≤ y0)
    {f : Nat → Nat → List (Nat × BitVec 16) → List (Nat × BitVec 16)}
    (hf : ∀ x y : Nat, x0 ≤ x → (x : Int) ≤ x1 → y0 ≤ y → (y : Int) ≤ y1 → ∀ m, P m → P (f x y m))
    (m : List (Nat × BitVec 16)) (h : P m) : P (scanBox x0 x1 y0 y1 f m) := by
  refine forRange_keeps_within P _ _ _ (fun y top bottom row hrow => ?_) m h
  refine forRange_keeps_within P _ _ _ (fun x left right cell hcell => ?_) row hrow
  unfold rangeCount at right bottom
  exact hf x y (by omega) (by omega) (by omega) (by omega) cell hcell

/-- The operation leaves every pixel of VRAM but `(x, y)`. -/
def OwnPixelOnly (x y : Nat) (f : List (Nat × BitVec 16) → List (Nat × BitVec 16)) : Prop :=
  ∀ (m : List (Nat × BitVec 16)) (x' y' : Nat), x' < 1024 → y' < 512 → ¬ (x' = x ∧ y' = y) →
    vramRead (f m) x' y' = vramRead m x' y'

/-- The operation leaves every pixel outside the area. -/
def StaysIn (area : DrawArea) (f : List (Nat × BitVec 16) → List (Nat × BitVec 16)) : Prop :=
  ∀ m, AgreeOutside area m (f m)

theorem StaysIn.refl (area : DrawArea) : StaysIn area fun m => m := fun _ _ _ _ _ _ => rfl

theorem StaysIn.comp {area : DrawArea} {f g : List (Nat × BitVec 16) → List (Nat × BitVec 16)} (hf : StaysIn area f)
    (hg : StaysIn area g) : StaysIn area fun m => f (g m) :=
  fun m x y hx hy outside => (hf (g m) x y hx hy outside).trans (hg m x y hx hy outside)

/-- A pixel of the area is a pixel of VRAM. -/
theorem inArea_lt {area : DrawArea} {x y : Nat} (h : inArea area x y = true) : x < 1024 ∧ y < 512 := by
  obtain ⟨-, right, -, bottom⟩ := (inArea_iff area x y).1 h
  exact ⟨right.trans_lt area.maxX_lt, bottom.trans_lt area.maxY_lt⟩

/-- A visit of a pixel of the area stays in the area. -/
theorem OwnPixelOnly.staysIn {area : DrawArea} {x y : Nat} {f : List (Nat × BitVec 16) → List (Nat × BitVec 16)}
    (h : OwnPixelOnly x y f) (inside : inArea area x y = true) : StaysIn area f := by
  intro m x' y' hx' hy' outside
  refine h m x' y' hx' hy' ?_
  rintro ⟨rfl, rfl⟩
  rw [inside] at outside
  cases outside

/-- A scan of a box cut to the area stays in the area. -/
theorem scanBox_staysIn (area : DrawArea) (left right top bottom : Int)
    {f : Nat → Nat → List (Nat × BitVec 16) → List (Nat × BitVec 16)}
    (visit : ∀ x y, x < 1024 → y < 512 → OwnPixelOnly x y (f x y)) :
    StaysIn area (scanBox (max left area.minX.toNat) (min right area.maxX.toNat) (max top area.minY.toNat)
      (min bottom area.maxY.toNat) f) := by
  intro m
  refine scanBox_keeps (AgreeOutside area m) (by omega) (by omega) ?_ m (StaysIn.refl area m)
  intro x y hx0 hx1 hy0 hy1 now agree x' y' hx' hy' outside
  have inside : inArea area x y = true := (inArea_iff area x y).2 (by omega)
  obtain ⟨hx, hy⟩ := inArea_lt inside
  exact ((visit x y hx hy).staysIn inside now x' y' hx' hy' outside).trans (agree x' y' hx' hy' outside)

/-! ## Primitives -/

theorem putPixel_ownPixelOnly (ctx : Ctx) {x y : Nat} (front : Half) (hx : x < 1024) (hy : y < 512) :
    OwnPixelOnly x y (putPixel ctx x y front) :=
  fun m _ _ hx' hy' other => putPixel_other ctx front m hx hy hx' hy' other

theorem texturedPixel_ownPixelOnly (ctx : Ctx) {x y : Nat} (u v : Nat) (hx : x < 1024) (hy : y < 512) :
    OwnPixelOnly x y (texturedPixel ctx x y u v) :=
  fun m _ _ hx' hy' other => texturedPixel_other ctx u v m hx hy hx' hy' other

theorem Tri.drawPixel_ownPixelOnly (t : Tri) (ctx : Ctx) {x y : Nat} (hx : x < 1024) (hy : y < 512) :
    OwnPixelOnly x y (t.drawPixel ctx x y) := by
  unfold Tri.drawPixel
  cases ctx.rt with
  | shaded => exact putPixel_ownPixelOnly ctx _ hx hy
  | texP4 | texP8 | texD16 => exact texturedPixel_ownPixelOnly ctx _ _ hx hy

theorem drawTriangle_staysIn (ctx : Ctx) (area : DrawArea) (v0 v1 v2 : Vert) :
    StaysIn area (drawTriangle ctx area v0 v1 v2) := by
  unfold drawTriangle
  cases setup v0 v1 v2 with
  | none => exact .refl area
  | some t =>
    refine scanBox_staysIn area _ _ _ _ fun x y hx hy => ?_
    split
    · exact t.drawPixel_ownPixelOnly ctx hx hy
    · exact fun _ _ _ _ _ _ => rfl

theorem drawPolygon_staysIn (ctx : Ctx) (area : DrawArea) (v0 v1 v2 : Vert) (v3 : Option Vert) :
    StaysIn area (drawPolygon ctx area v0 v1 v2 v3) := by
  cases v3 with
  | none => exact drawTriangle_staysIn ctx area v0 v1 v2
  | some v3 => exact (drawTriangle_staysIn ctx area v1 v2 v3).comp (drawTriangle_staysIn ctx area v0 v1 v2)

/-! ## Commands -/

/-- The outcome is a next state whose VRAM differs from that of `s` inside the drawing area of `s` only. -/
def DrawsInside (o : Out) (s : State) : Prop := ∃ t, o = .next t ∧ AgreeOutside s.drawArea s.vram t.vram

theorem DrawsInside.of_same {s t : State} (h : t.vram = s.vram) : DrawsInside (.next t) s :=
  ⟨t, rfl, fun _ _ _ _ _ => by rw [h]⟩

theorem DrawsInside.of_draw {s : State} {draw : List (Nat × BitVec 16) → List (Nat × BitVec 16)}
    (h : StaysIn s.drawArea draw) : DrawsInside (.next (drawWith s draw)) s :=
  ⟨_, rfl, h s.vram⟩

theorem polygonShaded_drawsInside (raw semi : Bool) (c : Color) (v0 v1 v2 : Vert) (v3 : Option Vert) (s : State) :
    DrawsInside (polygonShaded raw semi c v0 v1 v2 v3 s) s :=
  .of_draw (drawPolygon_staysIn _ _ _ _ _ _)

theorem polygonTextured_drawsInside (op : BitVec 8) (raw semi : Bool) (c : Color) (tex : TexInfo) (v0 v1 v2 : Vert)
    (v3 : Option Vert) (s : State) : DrawsInside (polygonTextured op raw semi c tex v0 v1 v2 v3 s) s := by
  unfold polygonTextured
  split
  · exact .of_same rfl
  · exact .of_draw (drawPolygon_staysIn _ _ _ _ _ _)

theorem rectShaded_drawsInside (raw semi : Bool) (c : Color) (v : Vertex) (w h : Nat) (s : State) :
    DrawsInside (rectShaded raw semi c v w h s) s :=
  .of_draw (scanBox_staysIn _ _ _ _ _ fun _ _ hx hy => putPixel_ownPixelOnly _ _ hx hy)

theorem rectTextured_drawsInside (op : BitVec 8) (raw semi : Bool) (c : Color) (v : Vertex) (t : Uv) (pal : Palette)
    (w h : Nat) (s : State) : DrawsInside (rectTextured op raw semi c v t pal w h s) s := by
  unfold rectTextured
  split
  · exact .of_same rfl
  · exact .of_draw (scanBox_staysIn _ _ _ _ _ fun _ _ hx hy => texturedPixel_ownPixelOnly _ _ _ hx hy)

/-- Every GP0 command draws inside the drawing area that stands when it begins. -/
theorem execCommand_drawsInside (i : Instr) (s : State) : DrawsInside (execCommand i s) s := by
  cases i
  case triF | triFR | triFS | triFSR | quadF | quadFR | quadFS | quadFSR | triG | triGR | triGS | triGSR | quadG |
      quadGR | quadGS | quadGSR =>
    exact polygonShaded_drawsInside ..
  case triFT | triFTR | triFTS | triFTSR | quadFT | quadFTR | quadFTS | quadFTSR | triGT | triGTR | triGTS | triGTSR |
      quadGT | quadGTR | quadGTS | quadGTSR =>
    exact polygonTextured_drawsInside ..
  case rectV | rectVR | rectVS | rectVSR | rect1 | rect1R | rect1S | rect1SR | rect8 | rect8R | rect8S | rect8SR |
      rect16 | rect16R | rect16S | rect16SR =>
    exact rectShaded_drawsInside ..
  case rectVT | rectVTR | rectVTS | rectVTSR | rect1T | rect1TR | rect1TS | rect1TSR | rect8T | rect8TR | rect8TS |
      rect8TSR | rect16T | rect16TR | rect16TS | rect16TSR =>
    exact rectTextured_drawsInside ..
  all_goals exact .of_same rfl

/-- Settles O17: the command is `execCommand`'s, which draws inside the area. -/
theorem drawingStaysInTheDrawingArea : Obligations.DrawingStaysInTheDrawingArea := by
  intro i s t x y gp0 h hx hy outside
  obtain ⟨u, hu, agree⟩ := execCommand_drawsInside i s
  rw [exec_gp0 gp0, hu] at h
  cases h
  exact agree x y hx hy outside

end Sys2Proof.Machine
end

section
/-! PROOFS. How far a GP0 command reaches (20_memory.md R60): VRAM and the drawing environment, a primitive VRAM only. -/

namespace Sys2Proof.Machine

/-- The outcome is a next state that differs from `s` in VRAM and the outcome of the access only. -/
def OnlyDraws (o : Out) (s : State) : Prop := ∃ t, o = .next t ∧ DrawsOnly s t

theorem polygonShaded_onlyDraws (raw semi : Bool) (c : Color) (v0 v1 v2 : Vert) (v3 : Option Vert) (s : State) :
    OnlyDraws (polygonShaded raw semi c v0 v1 v2 v3 s) s :=
  ⟨_, rfl, rfl⟩

/-- The reserved depth, refused before anything is drawn, changes the outcome alone (44_polygon.md R240). -/
theorem polygonTextured_onlyDraws (op : BitVec 8) (raw semi : Bool) (c : Color) (tex : TexInfo) (v0 v1 v2 : Vert)
    (v3 : Option Vert) (s : State) : OnlyDraws (polygonTextured op raw semi c tex v0 v1 v2 v3 s) s := by
  unfold polygonTextured
  split <;> exact ⟨_, rfl, rfl⟩

theorem rectShaded_onlyDraws (raw semi : Bool) (c : Color) (v : Vertex) (w h : Nat) (s : State) :
    OnlyDraws (rectShaded raw semi c v w h s) s :=
  ⟨_, rfl, rfl⟩

theorem rectTextured_onlyDraws (op : BitVec 8) (raw semi : Bool) (c : Color) (v : Vertex) (t : Uv) (pal : Palette)
    (w h : Nat) (s : State) : OnlyDraws (rectTextured op raw semi c v t pal w h s) s := by
  unfold rectTextured
  split <;> exact ⟨_, rfl, rfl⟩

/-- Every primitive only draws (44_polygon.md R243(e), 47_rectangle.md R337(d)). The other commands are told from it by
the group of their command word, bits 31..29. -/
theorem execCommand_onlyDraws {i : Instr} (primitive : isPrimitive i = true) (s : State) :
    OnlyDraws (execCommand i s) s := by
  cases i
  case triF | triFR | triFS | triFSR | quadF | quadFR | quadFS | quadFSR | triG | triGR | triGS | triGSR | quadG |
      quadGR | quadGS | quadGSR =>
    exact polygonShaded_onlyDraws ..
  case triFT | triFTR | triFTS | triFTSR | quadFT | quadFTR | quadFTS | quadFTSR | triGT | triGTR | triGTS | triGTSR |
      quadGT | quadGTR | quadGTS | quadGTSR =>
    exact polygonTextured_onlyDraws ..
  case rectV | rectVR | rectVS | rectVSR | rect1 | rect1R | rect1S | rect1SR | rect8 | rect8R | rect8S | rect8SR |
      rect16 | rect16R | rect16S | rect16SR =>
    exact rectShaded_onlyDraws ..
  case rectVT | rectVTR | rectVTS | rectVTSR | rect1T | rect1TR | rect1TS | rect1TSR | rect8T | rect8TR | rect8TS |
      rect8TSR | rect16T | rect16TR | rect16TS | rect16TSR =>
    exact rectTextured_onlyDraws ..
  case drawmode | areaTl | areaBr | offset | line | gp0Unknown00 | gp0Unknown80 | gp0UnknownA0 | gp0UnknownC0 |
      gp0UnknownE0 =>
    unfold isPrimitive encode at primitive
    dsimp only at primitive
    repeat rw [extract_above _ _ _ (by omega)] at primitive
    exact absurd primitive (by decide)
  all_goals cases primitive

/-- Settles O16: a command by `execCommand_spec`, a primitive by `execCommand_onlyDraws`. -/
theorem gp0CommandsReachOnlyTheGpu : Obligations.Gp0CommandsReachOnlyTheGpu := by
  intro i s t gp0 h
  rw [exec_gp0 gp0] at h
  obtain ⟨u, hu, gpuOnly, buf, -⟩ := execCommand_spec i s
  obtain rfl : u = t := by rw [hu] at h; cases h; rfl
  refine ⟨gpuOnly, buf, fun primitive => ?_⟩
  obtain ⟨v, hv, drawsOnly⟩ := execCommand_onlyDraws primitive s
  rw [hu] at hv
  cases hv
  exact drawsOnly

end Sys2Proof.Machine
end

section
/-! PROOFS. Which accesses of the bus are refused, and under which kind (20_memory.md R76, R78, R79,
60_exceptions.md R392, R398): the decoder's and the bus's rows as ranges of the masked address, then one lemma per
refusal. -/

namespace Sys2Proof.Machine

/-! ## The rows of the address map -/

/-- The addresses of the DMA window (R77). -/
theorem inDmaWindow_iff (m : Word) : inDmaWindow m = true ↔ 0x1F801080 ≤ m.toNat ∧ m.toNat < 0x1F801100 := by
  rw [inDmaWindow, beq_iff_eq, ← BitVec.toNat_inj, BitVec.extractLsb'_toNat, Nat.shiftRight_eq_div_pow]
  simp only [BitVec.toNat_ofNat]
  omega

/-- The addresses of the GP0 ingress (R79, log entry 7). -/
theorem inGp0Word_iff (m : Word) : inGp0Word m = true ↔ 0x1F801810 ≤ m.toNat ∧ m.toNat < 0x1F801814 := by
  rw [inGp0Word, beq_iff_eq, ← BitVec.toNat_inj, BitVec.extractLsb'_toNat, BitVec.extractLsb'_toNat,
    Nat.shiftRight_eq_div_pow, Nat.shiftRight_eq_div_pow]
  simp only [Config.gp0Addr, BitVec.toNat_ofNat]
  omega

/-- The decoder's check of a word's alignment (R78). -/
theorem wordAligned_iff (m : Word) : m.extractLsb' 0 2 = 0#2 ↔ m.toNat % 4 = 0 := by
  rw [← BitVec.toNat_inj, BitVec.extractLsb'_toNat, Nat.shiftRight_zero]
  rfl

/-- A row of the decode table gives its target, because no earlier row holds its addresses (R76). -/
theorem BusTarget.Row.busTarget_eq {target : BusTarget} {m : Word} (row : target.Row m.toNat) :
    busTarget m = target := by
  unfold busTarget
  cases target with
  | ram => exact if_pos row
  | expansion1 =>
    dsimp only [BusTarget.Row] at row
    rw [if_neg (by omega), if_pos row]
  | ioOther =>
    dsimp only [BusTarget.Row] at row
    rw [if_neg (by omega), if_neg (by omega), if_pos row]
  | bios =>
    dsimp only [BusTarget.Row] at row
    rw [if_neg (by omega), if_neg (by omega), if_neg (by omega), if_pos row]
  | cacheControl =>
    dsimp only [BusTarget.Row] at row
    rw [if_neg (by omega), if_neg (by omega), if_neg (by omega), if_neg (by omega), if_pos row]
  | unmapped =>
    dsimp only [BusTarget.Row, InSomeRow] at row
    rw [if_neg (by omega), if_neg (by omega), if_neg (by omega), if_neg (by omega), if_neg (by omega)]

/-! ## The decoder on a bus access -/

/-- The masked address is in the DMA window or in the word of the GP0 ingress: the access is the block's own (R78). -/
def AtRegister (m : Word) : Prop := inDmaWindow m = true ∨ inGp0Word m = true

/-- The two ranges do not meet. -/
theorem inDmaWindow_of_inGp0Word {m : Word} (gp0 : inGp0Word m = true) : inDmaWindow m = false := by
  rw [inGp0Word_iff] at gp0
  rw [← Bool.not_eq_true, inDmaWindow_iff]
  omega

theorem decodeReg_wrongWidth {a : Access} (own : AtRegister (maskAddr a.addr)) (width : a.width ≠ .word) :
    decodeReg a = .error (.busError .wrongWidth) := by
  unfold decodeReg
  rcases own with window | gp0
  · simp [window, width]
  · simp [inDmaWindow_of_inGp0Word gp0, gp0, width]

theorem decodeReg_unaligned {a : Access} (own : AtRegister (maskAddr a.addr)) (width : a.width = .word)
    (misaligned : (maskAddr a.addr).toNat % 4 ≠ 0) : decodeReg a = .error (.busError .unaligned) := by
  rw [ne_eq, ← wordAligned_iff] at misaligned
  unfold decodeReg
  rcases own with window | gp0
  · simp [window, width, misaligned]
  · simp [inDmaWindow_of_inGp0Word gp0, gp0, width, misaligned]

theorem decodeReg_gp0_read {a : Access} (gp0 : inGp0Word (maskAddr a.addr) = true) (width : a.width = .word)
    (aligned : (maskAddr a.addr).toNat % 4 = 0) (read : a.op = .read) :
    decodeReg a = .error (.busError .unmapped) := by
  rw [← wordAligned_iff] at aligned
  simp [decodeReg, inDmaWindow_of_inGp0Word gp0, gp0, width, aligned, read]

theorem decodeReg_dmaWindow {a : Access} (window : inDmaWindow (maskAddr a.addr) = true) (width : a.width = .word)
    (aligned : (maskAddr a.addr).toNat % 4 = 0) :
    decodeReg a = .ok (dmaAccess (segmentOf a.addr) a.op (maskAddr a.addr) a.data) := by
  rw [← wordAligned_iff] at aligned
  simp [decodeReg, window, width, aligned]

theorem decodeReg_notRegister {a : Access} (other : ¬ AtRegister (maskAddr a.addr)) :
    decodeReg a = .error .notRegister := by
  simp only [AtRegister, not_or, Bool.not_eq_true] at other
  simp [decodeReg, other]

/-! ## The offsets of the DMA window that select no register -/

theorem exists_chan_num {k : Nat} (low : k < 7) : ∃ ch : Chan, ch.num = k := by
  interval_cases k
  exacts [⟨.mdecIn, rfl⟩, ⟨.mdecOut, rfl⟩, ⟨.gpu, rfl⟩, ⟨.cdRom, rfl⟩, ⟨.spu, rfl⟩, ⟨.pio, rfl⟩, ⟨.otc, rfl⟩]

/-- The offsets `0xiC` and `0x78` of the window are those of `UnmappedOffset` (R77, 40_dma_registers.md R161). -/
theorem exists_unmappedOffset {m : Word} (window : inDmaWindow m = true)
    (offset : m.toNat % 16 = 12 ∨ m.toNat % 128 = 0x78) : ∃ off : UnmappedOffset, off.addr = m := by
  rw [inDmaWindow_iff] at window
  have at_addr : ∀ off : UnmappedOffset, off.addr.toNat = m.toNat → ∃ off : UnmappedOffset, off.addr = m :=
    fun off h => ⟨off, BitVec.eq_of_toNat_eq h⟩
  rcases offset with last | off78
  · by_cases global : m.toNat % 128 / 16 = 7
    · refine at_addr .off7C ?_
      simp only [UnmappedOffset.addr, BitVec.toNat_ofNat]
      omega
    · obtain ⟨ch, num⟩ := exists_chan_num (k := m.toNat % 128 / 16) (by omega)
      refine at_addr (.chanC ch) ?_
      simp only [UnmappedOffset.addr, chanAddr, num, BitVec.toNat_add, BitVec.toNat_ofNat]
      omega
  · refine at_addr .off78 ?_
    simp only [UnmappedOffset.addr, BitVec.toNat_ofNat]
    omega

/-- An access at such an offset decodes to `DMA.UNMAPPED` (R161). -/
theorem dmaAccess_unmappedOffset (seg : Segment) (off : UnmappedOffset) (op : BusOp) (v : Word) :
    ∃ v', dmaAccess seg op off.addr v = .dmaUnmapped seg off op v' := by
  cases off with
  | chanC ch => cases ch <;> cases op <;> exact ⟨_, rfl⟩
  | off78 | off7C => cases op <;> exact ⟨_, rfl⟩

/-! ## The mirrors -/

/-- What a mirror's mask takes from an address with the mirror's top bits, these bits give back. -/
theorem topBits_or_masked {addr : Word} {top mask : BitVec 3} (mirror : addr.extractLsb' 29 3 = top)
    (apart : top &&& mask = 0#3) : (top ++ 0#29) ||| (addr &&& (mask ++ BitVec.allOnes 29)) = addr := by
  have parts : top ++ addr.extractLsb' 0 29 = addr := by
    rw [← mirror]
    exact (BitVec.extractLsb'_append_extractLsb'_eq_extractLsb' rfl).trans BitVec.extractLsb'_eq_self
  rw [← parts, BitVec.and_append, BitVec.or_append, apart, BitVec.or_zero, BitVec.and_allOnes, BitVec.zero_or]

/-- The mirror and the masked address make up the address as the host issued it (R75). -/
theorem segmentBits_or_maskAddr (addr : Word) : (segmentOf addr).bits ||| maskAddr addr = addr := by
  unfold segmentOf maskAddr
  split
  · exact topBits_or_masked (mask := 3#3) ‹_› rfl
  · split
    · exact topBits_or_masked (mask := 0#3) ‹_› rfl
    · exact BitVec.zero_or

/-! ## Refusals -/

/-- The access ends in the bus error `k`, and changes nothing else (60_exceptions.md R392). -/
def RefusedAs (k : BusErrorKind) (a : Access) (s : State) : Prop :=
  runEvent (.bus a) s = .next (busError k a s)

theorem runEvent_bus_ok {a : Access} {i : Instr} (h : decodeReg a = .ok i) (s : State) :
    runEvent (.bus a) s = exec i s := by
  simp only [runEvent, decode, h]

theorem runEvent_bus_error {a : Access} {r : Reject} (h : decodeReg a = .error r) (s : State) :
    runEvent (.bus a) s = rejectedAccess r a s := by
  simp only [runEvent, decode, h]

theorem refusedAs_of_decodeReg {k : BusErrorKind} {a : Access} (h : decodeReg a = .error (.busError k)) (s : State) :
    RefusedAs k a s :=
  runEvent_bus_error h s

theorem runEvent_bus_other {a : Access} (other : ¬ AtRegister (maskAddr a.addr)) (s : State) :
    runEvent (.bus a) s = busOther a s :=
  runEvent_bus_error (decodeReg_notRegister other) s

/-- `DMA.UNMAPPED` carries the address as issued (40_dma_registers.md R161). -/
theorem refusedAs_unmapped_of_dmaWindow {a : Access} (window : inDmaWindow (maskAddr a.addr) = true)
    (width : a.width = .word)
    (offset : (maskAddr a.addr).toNat % 16 = 12 ∨ (maskAddr a.addr).toNat % 128 = 0x78) (s : State) :
    RefusedAs .unmapped a s := by
  obtain ⟨off, place⟩ := exists_unmappedOffset window offset
  obtain ⟨v, access⟩ := dmaAccess_unmappedOffset (segmentOf a.addr) off a.op a.data
  have decoded := decodeReg_dmaWindow window width (by omega)
  rw [← place, access] at decoded
  have issued : (segmentOf a.addr).bits ||| off.addr = a.addr := by rw [place, segmentBits_or_maskAddr]
  rw [RefusedAs, runEvent_bus_ok decoded, busError, width]
  change Host.Outcome.next (s.raise (.bus .unmapped ((segmentOf a.addr).bits ||| off.addr) .word a.op)) = _
  rw [issued]

theorem refusedAs_unmapped_of_ioOther {a : Access} (row : BusTarget.ioOther.Row (maskAddr a.addr).toNat)
    (other : ¬ AtRegister (maskAddr a.addr)) (s : State) : RefusedAs .unmapped a s := by
  rw [RefusedAs, runEvent_bus_other other]
  simp only [busOther, row.busTarget_eq]

/-- The rows whose targets check the natural alignment (R62, R78, log entry 14). -/
def ChecksAlignment (m : Nat) : Prop := m < 0x200000 ∨ InOuterUnit m

/-- RAM and the outer units lie apart from the block's own registers. -/
theorem ChecksAlignment.not_atRegister {m : Word} (h : ChecksAlignment m.toNat) : ¬ AtRegister m := by
  unfold ChecksAlignment InOuterUnit at h
  rw [AtRegister, inDmaWindow_iff, inGp0Word_iff]
  omega

/-- Every target but the unowned I/O registers and the unmapped addresses checks the alignment. -/
theorem refusedAs_unaligned {a : Access} (checks : ChecksAlignment (maskAddr a.addr).toNat)
    (misaligned : (maskAddr a.addr).toNat % Width.bytes a.width ≠ 0) (s : State) : RefusedAs .unaligned a s := by
  have unaligned : aligned (maskAddr a.addr).toNat a.width = false := beq_false_of_ne misaligned
  have row := busTarget_row (maskAddr a.addr)
  rw [RefusedAs, runEvent_bus_other checks.not_atRegister]
  unfold busOther
  dsimp only
  rw [unaligned]
  unfold ChecksAlignment InOuterUnit at checks
  generalize busTarget (maskAddr a.addr) = target at row ⊢
  cases target with
  | unmapped | ioOther =>
    dsimp only [BusTarget.Row, InSomeRow] at row
    omega
  | ram | expansion1 | bios | cacheControl => rfl

theorem refusedAs_unmapped_of_noRow {a : Access} (noRow : ¬ InSomeRow (maskAddr a.addr).toNat) (s : State) :
    RefusedAs .unmapped a s := by
  have other : ¬ AtRegister (maskAddr a.addr) := by
    unfold InSomeRow at noRow
    rw [AtRegister, inDmaWindow_iff, inGp0Word_iff]
    omega
  rw [RefusedAs, runEvent_bus_other other]
  simp only [busOther, BusTarget.Row.busTarget_eq (target := .unmapped) noRow]

/-- Settles O19: at the block's registers the decoder refuses, elsewhere the row of the decode table does. -/
theorem refusedAccessesNameTheirKind : Obligations.RefusedAccessesNameTheirKind := by
  intro a s
  refine ⟨fun own => ⟨fun width => ?_, fun width misaligned => ?_⟩, fun gp0 width aligned read => ?_,
    fun window width offset => ?_, fun checks misaligned => ?_, fun low high notWindow notGp0 => ?_, fun noRow => ?_⟩
  · exact refusedAs_of_decodeReg (decodeReg_wrongWidth own width) s
  · exact refusedAs_of_decodeReg (decodeReg_unaligned own width misaligned) s
  · exact refusedAs_of_decodeReg (decodeReg_gp0_read gp0 width aligned read) s
  · exact refusedAs_unmapped_of_dmaWindow window width offset s
  · exact refusedAs_unaligned checks misaligned s
  · exact refusedAs_unmapped_of_ioOther ⟨low, high⟩ (by simp [AtRegister, notWindow, notGp0]) s
  · exact refusedAs_unmapped_of_noRow noRow s

end Sys2Proof.Machine
end

section
/-! PROOFS. The two memories seen from outside: a VRAM write (20_memory.md R71), the front-end's read of a pixel (R73),
the host's accesses to RAM byte by byte (R61, R64). -/

namespace Sys2Proof.Machine

/-! ## VRAM -/

/-- Two coordinate pairs have one key exactly if they are the same pixel after the wrap (R70, R71). -/
theorem vramKey_eq_iff (x y x' y' : Nat) : vramKey x' y' = vramKey x y ↔ x' % 1024 = x % 1024 ∧ y' % 512 = y % 512 := by
  simp only [vramKey, Config.vramW, Config.vramH]
  omega

/-- Settles O21: `vramRead_write`, with the keys compared by `vramKey_eq_iff`. -/
theorem vramAccessesWrapAndChangeOnePixel : Obligations.VramAccessesWrapAndChangeOnePixel := by
  intro m x y x' y' v
  simp only [vramRead_write, vramKey_eq_iff]

/-- Settles O22: both inputs are single updates; the pixel's zero extension to a word is a zero half above it. -/
theorem theOtherInputsReadAPixelAndSetTheEnvironment : Obligations.TheOtherInputsReadAPixelAndSetTheEnvironment := by
  intro x y area off semi page s
  have extended : (s.pixel x.toNat y.toNat).setWidth 32 = 0#16 ++ s.pixel x.toNat y.toNat :=
    BitVec.setWidth_eq_append (by decide)
  exact ⟨by rw [← extended]; rfl, rfl⟩

/-! ## The bytes of a word -/

theorem byte_append {n : Nat} (hi : BitVec n) (lo : Byte) (k : Nat) :
    (hi ++ lo).extractLsb' (8 * k) 8 = if k = 0 then lo else hi.extractLsb' (8 * (k - 1)) 8 := by
  split
  · subst k
    exact extract_low hi lo
  · rw [extract_above _ _ _ (by omega), Nat.mul_sub, Nat.mul_one]

/-- A byte has no byte above it. -/
theorem byte_byte (v : Byte) (k : Nat) : v.extractLsb' (8 * k) 8 = if k = 0 then v else 0 := by
  split
  · subst k
    exact BitVec.extractLsb'_eq_self
  · refine BitVec.eq_of_getLsbD_eq fun i _ => ?_
    rw [BitVec.getLsbD_extractLsb', BitVec.getLsbD_of_ge v _ (by omega), Bool.and_false]
    exact BitVec.getLsbD_zero.symm

/-! ## Host accesses to RAM -/

/-- Byte `k` of a load of any width at `a`: the RAM byte at `a + k`, or 0 above the width (R61, log entry 27). -/
theorem ramLoad_byte (ram : List Host.Cell) (w : Width) (a : Nat) {k : Nat} (hk : k < 4) :
    (ramLoad ram w a).extractLsb' (8 * k) 8 = if k < Width.bytes w then ramRead8 ram (a + k) else 0 := by
  cases w with
  | byte =>
    rw [ramLoad, BitVec.extractLsb'_setWidth_of_le (by omega), byte_byte]
    interval_cases k <;> rfl
  | half =>
    rw [ramLoad, BitVec.extractLsb'_setWidth_of_le (by omega), ramRead16, byte_append, byte_byte]
    interval_cases k <;> rfl
  | word =>
    rw [ramLoad, ramRead32, byte_append, byte_append, byte_append, byte_byte]
    interval_cases k <;> rfl

/-- A byte inside a store of any width at `a`: byte `k` of the data, low byte first (R61). -/
theorem ramRead8_ramStore_inside (ram : List Host.Cell) (w : Width) (a : Nat) (v : Word) {k : Nat}
    (inside : k < Width.bytes w) : ramRead8 (ramStore ram w a v) (a + k) = v.extractLsb' (8 * k) 8 := by
  cases w with
  | byte | half | word =>
    dsimp only [Width.bytes] at inside
    interval_cases k
    all_goals
      simp [ramStore, ramRead8_write8, ramRead8_write16, ramRead8_write32, BitVec.extractLsb'_extractLsb'_of_le]

/-- A byte outside a store is as before (R61). -/
theorem ramRead8_ramStore_outside (ram : List Host.Cell) (w : Width) {a b : Nat} (v : Word)
    (outside : ¬ (a ≤ b ∧ b < a + Width.bytes w)) : ramRead8 (ramStore ram w a v) b = ramRead8 ram b := by
  cases w with
  | byte =>
    dsimp only [Width.bytes] at outside
    rw [ramStore, ramRead8_write8, if_neg (by omega)]
  | half =>
    dsimp only [Width.bytes] at outside
    rw [ramStore, ramRead8_write16, if_neg (by omega), if_neg (by omega)]
  | word =>
    dsimp only [Width.bytes] at outside
    exact ramRead8_write32_outside ram v outside

/-- An aligned access to RAM reads or stores, whatever its width (R62). -/
theorem runEvent_bus_ram {a : Access} (ram : (maskAddr a.addr).toNat < 0x200000)
    (naturally : (maskAddr a.addr).toNat % Width.bytes a.width = 0) (s : State) :
    (a.op = .read → runEvent (.bus a) s = .next (s.answer (ramLoad s.ram a.width (maskAddr a.addr).toNat))) ∧
    (a.op = .write → runEvent (.bus a) s =
      .next { s with ram := ramStore s.ram a.width (maskAddr a.addr).toNat a.data, result := .done }) := by
  have checks : ChecksAlignment (maskAddr a.addr).toNat := .inl ram
  have noRefusal : aligned (maskAddr a.addr).toNat a.width = true := beq_iff_eq.2 naturally
  rw [runEvent_bus_other checks.not_atRegister]
  unfold busOther
  dsimp only
  rw [BusTarget.Row.busTarget_eq (target := .ram) ram, noRefusal]
  exact ⟨fun read => by rw [read]; rfl, fun write => by rw [write]; rfl⟩

/-- Settles O20: the store and the load of `runEvent_bus_ram`, byte by byte. -/
theorem hostRamAccessesAreLittleEndianBytes : Obligations.HostRamAccessesAreLittleEndianBytes := by
  intro a s ram naturally
  obtain ⟨reads, writes⟩ := runEvent_bus_ram ram naturally s
  refine ⟨fun write => ⟨_, writes write, rfl, fun b => ?_⟩,
    fun read => ⟨_, reads read, fun k hk => ramLoad_byte _ _ _ hk⟩⟩
  split
  · rename_i inside
    obtain ⟨low, high⟩ := inside
    obtain ⟨k, rfl⟩ := Nat.exists_eq_add_of_le low
    rw [Nat.add_sub_cancel_left]
    exact ramRead8_ramStore_inside _ _ _ _ (by omega)
  · exact ramRead8_ramStore_outside _ _ _ ‹_›

end Sys2Proof.Machine
end

section
/-! PROOFS. The decoder against the encoder (30_encoding.md R100 to R121), format by format: what each encoding decodes
to, and that nothing else comes out of the decoder. -/

namespace Sys2Proof.Machine

/-! ## Bus accesses (format `REG`) -/

theorem top_append_low (m : Word) : m.extractLsb' 29 3 ++ m.extractLsb' 0 29 = m :=
  (BitVec.extractLsb'_append_extractLsb'_eq_extractLsb' rfl).trans BitVec.extractLsb'_eq_self

/-- A mirror adds its number in the top three bits, and nothing else (20_memory.md R75). -/
theorem segmentBits_or (seg : Segment) (low : BitVec 29) :
    seg.bits ||| (0#3 ++ low) = seg.bits.extractLsb' 29 3 ++ low := by
  have bits : seg.bits = seg.bits.extractLsb' 29 3 ++ 0#29 := by cases seg <;> rfl
  conv_lhs => rw [bits]
  rw [BitVec.or_append, BitVec.or_zero, BitVec.zero_or]

theorem segmentOf_bits_append (seg : Segment) (low : BitVec 29) :
    segmentOf (seg.bits.extractLsb' 29 3 ++ low) = seg := by
  rw [segmentOf, extract_high]
  cases seg <;> rfl

/-- The mirror masking takes the mirror's number away (R75). -/
theorem maskAddr_bits_append (seg : Segment) (low : BitVec 29) :
    maskAddr (seg.bits.extractLsb' 29 3 ++ low) = 0#3 ++ low := by
  have masked : ∀ top mask : BitVec 3, (top ++ low) &&& (mask ++ BitVec.allOnes 29) = (top &&& mask) ++ low := by
    intro top mask
    rw [BitVec.and_append, BitVec.and_allOnes]
  rw [maskAddr, extract_high]
  cases seg with
  | kuseg => rfl
  | kseg0 => exact masked 4#3 3#3
  | kseg1 => exact masked 5#3 0#3

/-- A word access to the DMA window decodes, through every mirror, to the access of the register (R77, R100). -/
theorem decode_dmaWindow (seg : Segment) (op : BusOp) {m : Word} (v : Word) (window : inDmaWindow m = true)
    (aligned : m.toNat % 4 = 0) : decode (regAccess op (seg.bits ||| m) v) = .ok (dmaAccess seg op m v) := by
  have parts : m = 0#3 ++ m.extractLsb' 0 29 := by
    rw [inDmaWindow_iff] at window
    have high : m.extractLsb' 29 3 = 0#3 := by
      apply BitVec.eq_of_toNat_eq
      rw [BitVec.extractLsb'_toNat, Nat.shiftRight_eq_div_pow, BitVec.toNat_ofNat]
      omega
    rw [← high, top_append_low]
  have mirror : segmentOf (seg.bits ||| m) = seg := by rw [parts, segmentBits_or, segmentOf_bits_append]
  have masked : maskAddr (seg.bits ||| m) = m := by
    conv_lhs => rw [parts, segmentBits_or, maskAddr_bits_append, ← parts]
  have decoded := decodeReg_dmaWindow (a := ⟨op, seg.bits ||| m, .word, v⟩) (by rwa [masked]) rfl (by rwa [masked])
  dsimp only at decoded
  rwa [mirror, masked] at decoded

/-- The same without a mirror's bits. -/
theorem decode_dmaWindow_kuseg (op : BusOp) {m : Word} (v : Word) (window : inDmaWindow m = true)
    (aligned : m.toNat % 4 = 0) : decode (regAccess op m v) = .ok (dmaAccess .kuseg op m v) := by
  have decoded := decode_dmaWindow .kuseg op v window aligned
  have noBits : Segment.kuseg.bits ||| m = m := BitVec.zero_or
  rwa [noBits] at decoded

/-- The four words of a channel lie in the window, aligned (R77). -/
theorem chanAddr_inDmaWindow (ch : Chan) {k : Nat} (hk : k < 4) :
    inDmaWindow (chanAddr ch k) = true ∧ (chanAddr ch k).toNat % 4 = 0 := by
  have number : ch.num < 7 := by cases ch <;> decide
  rw [inDmaWindow_iff, chanAddr, BitVec.toNat_add, BitVec.toNat_ofNat, BitVec.toNat_ofNat]
  omega

theorem decode_chanAddr (ch : Chan) {k : Nat} (hk : k < 4) (op : BusOp) (v : Word) :
    decode (regAccess op (chanAddr ch k) v) = .ok (dmaAccess .kuseg op (chanAddr ch k) v) :=
  decode_dmaWindow_kuseg op v (chanAddr_inDmaWindow ch hk).1 (chanAddr_inDmaWindow ch hk).2

theorem unmappedOffset_inDmaWindow (off : UnmappedOffset) :
    inDmaWindow off.addr = true ∧ off.addr.toNat % 4 = 0 := by
  cases off with
  | chanC ch => exact chanAddr_inDmaWindow ch (by decide)
  | off78 | off7C => decide

/-- An access that selects no register keeps its mirror, its offset and the data of a write (40_dma_registers.md R161). -/
theorem dmaAccess_dmaUnmapped {seg : Segment} {off : UnmappedOffset} {op : BusOp} {v : Word}
    (wf : (Instr.dmaUnmapped seg off op v).wellFormed = true) : dmaAccess seg op off.addr v = .dmaUnmapped seg off op v := by
  cases op with
  | write =>
    cases off with
    | chanC ch => cases ch <;> rfl
    | off78 | off7C => rfl
  | read =>
    obtain rfl : v = 0 := by simpa [Instr.wellFormed] using wf
    cases off with
    | chanC ch => cases ch <;> rfl
    | off78 | off7C => rfl

theorem decode_encode_dmaUnmapped {seg : Segment} {off : UnmappedOffset} {op : BusOp} {v : Word}
    (wf : (Instr.dmaUnmapped seg off op v).wellFormed = true) :
    decode (encode (.dmaUnmapped seg off op v)) = .ok (.dmaUnmapped seg off op v) := by
  obtain ⟨window, aligned⟩ := unmappedOffset_inDmaWindow off
  rw [encode, decode_dmaWindow seg op v window aligned, dmaAccess_dmaUnmapped wf]

theorem decodeReg_gp0_write {a : Access} (gp0 : inGp0Word (maskAddr a.addr) = true) (width : a.width = .word)
    (aligned : (maskAddr a.addr).toNat % 4 = 0) (write : a.op = .write) : decodeReg a = .ok (.gp0Wr a.data) := by
  rw [← wordAligned_iff] at aligned
  simp [decodeReg, inDmaWindow_of_inGp0Word gp0, gp0, width, aligned, write]

/-- The channel registers, the global registers and the GP0 ingress come back from their addresses (R77, R79). -/
theorem decode_encode_register {i : Instr} (register : ∃ a, encode i = .reg a) (wf : i.wellFormed = true) :
    decode (encode i) = .ok i := by
  cases i with
  | dmaWrBase ch v | dmaWrBlock ch v | dmaWrChctl ch v | dmaRdBase ch | dmaRdBlock ch | dmaRdChctl ch =>
    rw [encode, decode_chanAddr ch (by decide)]
    cases ch <;> rfl
  | dmaWrControl v | dmaWrInterrupt v | dmaRdControl | dmaRdInterrupt =>
    exact decode_dmaWindow_kuseg _ _ (by decide) (by decide)
  | dmaUnmapped seg off op v => exact decode_encode_dmaUnmapped wf
  | gp0Wr v =>
    have own : inGp0Word (maskAddr Config.gp0Addr) = true ∧ (maskAddr Config.gp0Addr).toNat % 4 = 0 := by decide
    exact decodeReg_gp0_write own.1 rfl own.2 rfl
  | _ =>
    obtain ⟨a, other⟩ := register
    cases other

/-- What a bus access can decode to (R78, R100). -/
theorem decodeReg_ok {a : Access} {i : Instr} (h : decodeReg a = .ok i) :
    i = dmaAccess (segmentOf a.addr) a.op (maskAddr a.addr) a.data ∨ i = .gp0Wr a.data := by
  by_cases own : AtRegister (maskAddr a.addr)
  case neg => cases (decodeReg_notRegister own).symm.trans h
  by_cases width : a.width = .word
  case neg => cases (decodeReg_wrongWidth own width).symm.trans h
  by_cases aligned : (maskAddr a.addr).toNat % 4 = 0
  case neg => cases (decodeReg_unaligned own width aligned).symm.trans h
  rcases own with window | gp0
  · exact .inl (Except.ok.inj (h.symm.trans (decodeReg_dmaWindow window width aligned)))
  · cases op : a.op with
    | read => cases (decodeReg_gp0_read gp0 width aligned op).symm.trans h
    | write => exact .inr (Except.ok.inj (h.symm.trans (decodeReg_gp0_write gp0 width aligned op)))

theorem dmaAccess_wellFormed (seg : Segment) (op : BusOp) (m v : Word) : (dmaAccess seg op m v).wellFormed = true := by
  unfold dmaAccess
  split <;> rfl

theorem decodeReg_wellFormed {a : Access} {i : Instr} (h : decodeReg a = .ok i) : i.wellFormed = true := by
  obtain rfl | rfl := decodeReg_ok h
  · exact dmaAccess_wellFormed ..
  · rfl

/-! ## Control words (format `CHCTL`) -/

/-- The transfer that `kind` names, as an instruction (30_encoding.md R120). -/
def xferInstr (ch : Chan) (ctl : Word) : XferKind → Instr
  | .fromRam => .xferBlockFromram ch ctl
  | .toRam => .xferBlockToram ch ctl
  | .otc => .xferBlockOtc ctl
  | .list => .xferList ctl
  | .invalid => .xferInvalid ch ctl

theorem decodeChctl_of_enabled {ctl : Word} (enabled : WellFormed.enabled ctl = true) (ch : Chan) :
    decodeChctl ch ctl = .ok (xferInstr ch ctl (selectXfer ch ctl)) := by
  rw [WellFormed.enabled] at enabled
  rw [decodeChctl, if_pos enabled]
  cases selectXfer ch ctl <;> rfl

theorem decodeChctl_of_not_enabled {ctl : Word} (off : ¬ WellFormed.enabled ctl = true) (ch : Chan) :
    decodeChctl ch ctl = .error .notEnabled :=
  if_neg off

theorem selectXfer_of_sync_three {ctl : Word} (mode : WellFormed.sync ctl = 3#2) (ch : Chan) :
    selectXfer ch ctl = .invalid := by
  rw [WellFormed.sync] at mode
  rw [selectXfer, mode]
  rfl

theorem selectXfer_of_sync_two {ctl : Word} (mode : WellFormed.sync ctl = 2#2) (ch : Chan) :
    selectXfer ch ctl = if ch = .gpu ∧ WellFormed.fromRam ctl = true then .list else .invalid := by
  rw [WellFormed.sync] at mode
  rw [selectXfer, mode]
  rfl

/-- Bit 10 of the control word is the upper bit of the mode. -/
theorem blockMode_iff (ctl : Word) :
    WellFormed.blockMode ctl = true ↔ WellFormed.sync ctl ≠ 3#2 ∧ WellFormed.sync ctl ≠ 2#2 := by
  have upper : WellFormed.blockMode ctl = !(WellFormed.sync ctl).getLsbD 1 := by
    simp [WellFormed.blockMode, WellFormed.sync]
  have table : ∀ sync : BitVec 2, (!sync.getLsbD 1) = true ↔ sync ≠ 3#2 ∧ sync ≠ 2#2 := by decide
  rw [upper, table]

theorem selectXfer_of_blockMode {ctl : Word} (block : WellFormed.blockMode ctl = true) (ch : Chan) :
    selectXfer ch ctl = if ch = .otc then .otc else if WellFormed.fromRam ctl then .fromRam else .toRam := by
  obtain ⟨not3, not2⟩ := (blockMode_iff ctl).1 block
  unfold selectXfer
  split
  · exact absurd (BitVec.eq_of_toNat_eq ‹_›) not3
  · exact absurd (BitVec.eq_of_toNat_eq ‹_›) not2
  · rfl

/-- A well-formed transfer comes back from its control word and channel (R103, 41_dma_block_transfer.md R180). -/
theorem decode_encode_chctl {i : Instr} (transfer : ∃ ch ctl, encode i = .chctl ch ctl) (wf : i.wellFormed = true) :
    decode (encode i) = .ok i := by
  cases i with
  | xferBlockFromram ch ctl =>
    simp only [Instr.wellFormed, Bool.and_eq_true, bne_iff_ne] at wf
    obtain ⟨⟨⟨notOtc, enabled⟩, block⟩, fromRam⟩ := wf
    rw [encode, decode, decodeChctl_of_enabled enabled, selectXfer_of_blockMode block, if_neg notOtc, if_pos fromRam,
      xferInstr]
  | xferBlockToram ch ctl =>
    simp only [Instr.wellFormed, Bool.and_eq_true, bne_iff_ne, Bool.not_eq_true'] at wf
    obtain ⟨⟨⟨notOtc, enabled⟩, block⟩, toRam⟩ := wf
    rw [encode, decode, decodeChctl_of_enabled enabled, selectXfer_of_blockMode block, if_neg notOtc, toRam]
    rfl
  | xferBlockOtc ctl =>
    simp only [Instr.wellFormed, Bool.and_eq_true] at wf
    obtain ⟨enabled, block⟩ := wf
    rw [encode, decode, decodeChctl_of_enabled enabled, selectXfer_of_blockMode block, if_pos rfl, xferInstr]
  | xferList ctl =>
    simp only [Instr.wellFormed, Bool.and_eq_true, beq_iff_eq] at wf
    obtain ⟨⟨enabled, mode⟩, fromRam⟩ := wf
    rw [encode, decode, decodeChctl_of_enabled enabled, selectXfer_of_sync_two mode, if_pos ⟨rfl, fromRam⟩, xferInstr]
  | xferInvalid ch ctl =>
    simp only [Instr.wellFormed, Bool.and_eq_true, Bool.or_eq_true, beq_iff_eq, bne_iff_ne, Bool.not_eq_true'] at wf
    obtain ⟨enabled, mode | ⟨mode, notList⟩⟩ := wf
    · rw [encode, decode, decodeChctl_of_enabled enabled, selectXfer_of_sync_three mode, xferInstr]
    · have other : ¬ (ch = .gpu ∧ WellFormed.fromRam ctl = true) := not_and_or.2 (by simpa using notList)
      rw [encode, decode, decodeChctl_of_enabled enabled, selectXfer_of_sync_two mode, if_neg other, xferInstr]
  | _ =>
    obtain ⟨ch, ctl, other⟩ := transfer
    cases other

/-- The transfer that an enabled control word selects is well formed with it (R103, R180). -/
theorem selectXfer_wellFormed {ctl : Word} (enabled : WellFormed.enabled ctl = true) (ch : Chan) :
    (xferInstr ch ctl (selectXfer ch ctl)).wellFormed = true := by
  by_cases mode3 : WellFormed.sync ctl = 3#2
  · simp [selectXfer_of_sync_three mode3, xferInstr, Instr.wellFormed, enabled, mode3]
  by_cases mode2 : WellFormed.sync ctl = 2#2
  · rw [selectXfer_of_sync_two mode2]
    split
    · simp_all [xferInstr, Instr.wellFormed]
    · rename_i notList
      simpa [xferInstr, Instr.wellFormed, enabled, mode2] using not_and_or.1 notList
  have block := (blockMode_iff ctl).2 ⟨mode3, mode2⟩
  rw [selectXfer_of_blockMode block]
  split
  · simp [xferInstr, Instr.wellFormed, enabled, block]
  · split <;> simp_all [xferInstr, Instr.wellFormed]

theorem decodeChctl_wellFormed {ch : Chan} {ctl : Word} {i : Instr} (h : decodeChctl ch ctl = .ok i) :
    i.wellFormed = true := by
  by_cases enabled : WellFormed.enabled ctl = true
  · rw [decodeChctl_of_enabled enabled] at h
    cases h
    exact selectXfer_wellFormed enabled ch
  · rw [decodeChctl_of_not_enabled enabled] at h
    cases h

/-! ## List headers (format `LLHDR`) -/

/-- Size, end mark and link come back from the header that `encode` builds of them (R107). -/
theorem decodeHeader_append (size : Byte) (last : BitVec 1) (next : BitVec 23) :
    decodeHeader (size ++ last ++ next) = if last = 1#1 then .llEnd size next else .llNext size next := by
  have mark : (size ++ last ++ next).getLsbD 23 = last.getLsbD 0 := by
    rw [BitVec.getLsbD_append, if_neg (by decide), BitVec.getLsbD_append, if_pos (by decide)]
  have top : (size ++ last ++ next).extractLsb' 24 8 = size :=
    (extract_above _ _ _ (by decide)).trans (extract_high ..)
  rw [decodeHeader, mark, top, extract_low]
  obtain rfl | rfl := BitVec.eq_zero_or_eq_one last <;> rfl

theorem decode_encode_llhdr {i : Instr} (header : ∃ h, encode i = .llhdr h) : decode (encode i) = .ok i := by
  cases i with
  | llNext size next | llEnd size next =>
    rw [encode, decode, decodeHeader_append]
    rfl
  | _ =>
    obtain ⟨h, other⟩ := header
    cases other

theorem decodeHeader_wellFormed (h : Word) : (decodeHeader h).wellFormed = true := by
  unfold decodeHeader
  split <;> rfl

/-! ## GP0 packets (formats `CMD`, `ENV`) -/

theorem decode_gp0_of_commandOf {w0 : Word} {args : List Word} {i : Instr} (command : commandOf w0 args = some i) :
    decode (.gp0 w0 args) = .ok i := by
  rw [decode, decodeGp0, command]

/-- The row of the table for the command byte `op` reads the packet by `ofWords`: then what `ofWords` gives back decodes. -/
theorem decode_packet {α : Type} {ofWords : Word → List Word → Option α} {make : α → Instr} {c : Color} {op : BitVec 8}
    {args : List Word} {p : α} (packet : ofWords (c.toWord op) args = some p)
    (row : ∀ w0, opOf w0 = op → commandOf w0 args = (ofWords w0 args).map make) :
    decode (.gp0 (c.toWord op) args) = .ok (make p) := by
  apply decode_gp0_of_commandOf
  rw [row _ (opOf_toWord ..), packet, Option.map_some]

/-- The command byte is its group `op[7:5]` and the five bits below (R114). -/
theorem opOf_toNat (w0 : Word) :
    (opOf w0).toNat = 32 * (w0.extractLsb' 29 3).toNat + (w0.extractLsb' 24 5).toNat := by
  simp only [opOf, BitVec.extractLsb'_toNat, Nat.shiftRight_eq_div_pow]
  omega

/-- The command bytes of the environment commands (R117, R120). -/
def environmentBytes : List Nat := [0xE1, 0xE3, 0xE4, 0xE5]

/-- The environment commands are four of the last group (R117). -/
theorem opOf_mem_environmentBytes_iff (w0 : Word) : (opOf w0).toNat ∈ environmentBytes ↔
    w0.extractLsb' 29 3 = 7#3 ∧ w0.extractLsb' 24 5 ∈ [1#5, 3#5, 4#5, 5#5] := by
  have group := (w0.extractLsb' 29 3).isLt
  have low := (w0.extractLsb' 24 5).isLt
  rw [opOf_toNat]
  simp only [environmentBytes, List.mem_cons, List.not_mem_nil, or_false, ← BitVec.toNat_inj, BitVec.toNat_ofNat]
  omega

/-- Outside the groups of the polygons and the rectangles every other command byte is refused (R121). -/
theorem commandOf_refused {w0 : Word} (polygon : w0.extractLsb' 29 3 ≠ 1#3) (rectangle : w0.extractLsb' 29 3 ≠ 3#3)
    (environment : (opOf w0).toNat ∉ environmentBytes) (args : List Word) :
    commandOf w0 args = some (refusedCommand w0) := by
  have byte := opOf_toNat w0
  have low := (w0.extractLsb' 24 5).isLt
  simp only [environmentBytes, List.mem_cons, List.not_mem_nil, or_false, not_or] at environment
  simp only [ne_eq, ← BitVec.toNat_inj, BitVec.toNat_ofNat] at polygon rectangle
  unfold commandOf
  split
  case h_69 => rfl
  all_goals omega

/-- A refused command word of a group without accepted commands comes back (R121). -/
theorem decode_refused_group {k : BitVec 3} (rest : BitVec 29) (group : k ∉ [1#3, 3#3, 7#3]) :
    decode (.gp0 (k ++ rest) []) = .ok (refusedCommand (k ++ rest)) := by
  simp only [List.mem_cons, List.not_mem_nil, or_false, not_or] at group
  obtain ⟨polygon, rectangle, environment⟩ := group
  have top : (k ++ rest).extractLsb' 29 3 = k := extract_high ..
  refine decode_gp0_of_commandOf (commandOf_refused (by rwa [top]) (by rwa [top]) ?_ [])
  rw [opOf_mem_environmentBytes_iff, top]
  exact fun mem => environment mem.1

/-- A refused command word of the last group comes back: the environment commands are not well formed as one (R121). -/
theorem decode_encode_gp0UnknownE0 {op : BitVec 5} {arg : BitVec 24} (wf : (Instr.gp0UnknownE0 op arg).wellFormed = true) :
    decode (encode (.gp0UnknownE0 op arg)) = .ok (.gp0UnknownE0 op arg) := by
  have group : (7#3 ++ op ++ arg).extractLsb' 29 3 = 7#3 :=
    (extract_above _ _ _ (by decide)).trans (extract_high ..)
  have low : (7#3 ++ op ++ arg).extractLsb' 24 5 = op := (extract_above _ _ _ (by decide)).trans (extract_low ..)
  have command : commandOf (7#3 ++ op ++ arg) [] = some (refusedCommand (7#3 ++ op ++ arg)) := by
    refine commandOf_refused (by rw [group]; decide) (by rw [group]; decide) ?_ []
    rw [opOf_mem_environmentBytes_iff, group, low]
    simpa [Instr.wellFormed, and_assoc] using wf
  rw [encode, decode_gp0_of_commandOf command, refusedCommand, group, low, extract_low]
  rfl

/-- The environment commands come back from their words (R117). -/
theorem decode_encode_environment {i : Instr} {op : BitVec 8} (command : EnvCommand i op) :
    decode (encode i) = .ok i := by
  obtain ⟨w0, word, byte⟩ := command.encode
  rw [word]
  refine decode_gp0_of_commandOf ?_
  obtain ⟨page, semi, rfl, rfl⟩ | ⟨x, y, rfl, rfl⟩ | ⟨x, y, rfl, rfl⟩ | ⟨dx, dy, rfl, rfl⟩ := command
  all_goals
    cases word
    rw [commandOf, byte]
    simp (disch := decide) only [TexPage.ofDrawMode, extract_above, extract_low, Nat.reduceSub]
    rfl

/-- The packet or the single word of a well-formed GP0 command gives it back: a polygon or a rectangle by the row of its
command byte (R118, R119, R120). -/
theorem decode_encode_gp0 {i : Instr} (command : ∃ w0 args, encode i = .gp0 w0 args) (wf : i.wellFormed = true) :
    decode (encode i) = .ok i := by
  cases i with
  | triF p | triFR p | triFS p | triFSR p =>
    exact decode_packet (TriFlat.ofWords_args p _) fun w0 op => by rw [commandOf, op]; rfl
  | triFT p | triFTR p | triFTS p | triFTSR p =>
    exact decode_packet (TriFlatTex.ofWords_args p _) fun w0 op => by rw [commandOf, op]; rfl
  | quadF p | quadFR p | quadFS p | quadFSR p =>
    exact decode_packet (QuadFlat.ofWords_args p _) fun w0 op => by rw [commandOf, op]; rfl
  | quadFT p | quadFTR p | quadFTS p | quadFTSR p =>
    exact decode_packet (QuadFlatTex.ofWords_args p _) fun w0 op => by rw [commandOf, op]; rfl
  | triG p | triGR p | triGS p | triGSR p =>
    exact decode_packet (TriGouraud.ofWords_args p _) fun w0 op => by rw [commandOf, op]; rfl
  | triGT p | triGTR p | triGTS p | triGTSR p =>
    exact decode_packet (TriGouraudTex.ofWords_args p _) fun w0 op => by rw [commandOf, op]; rfl
  | quadG p | quadGR p | quadGS p | quadGSR p =>
    exact decode_packet (QuadGouraud.ofWords_args p _) fun w0 op => by rw [commandOf, op]; rfl
  | quadGT p | quadGTR p | quadGTS p | quadGTSR p =>
    exact decode_packet (QuadGouraudTex.ofWords_args p _) fun w0 op => by rw [commandOf, op]; rfl
  | rectV p | rectVR p | rectVS p | rectVSR p =>
    exact decode_packet (RectVar.ofWords_args p _) fun w0 op => by rw [commandOf, op]; rfl
  | rectVT p | rectVTR p | rectVTS p | rectVTSR p =>
    exact decode_packet (RectVarTex.ofWords_args p _) fun w0 op => by rw [commandOf, op]; rfl
  | rect1 p | rect1R p | rect1S p | rect1SR p | rect8 p | rect8R p | rect8S p | rect8SR p | rect16 p | rect16R p
  | rect16S p | rect16SR p =>
    exact decode_packet (RectFix.ofWords_args p _) fun w0 op => by rw [commandOf, op]; rfl
  | rect1T p | rect1TR p | rect1TS p | rect1TSR p | rect8T p | rect8TR p | rect8TS p | rect8TSR p | rect16T p
  | rect16TR p | rect16TS p | rect16TSR p =>
    exact decode_packet (RectFixTex.ofWords_args p _) fun w0 op => by rw [commandOf, op]; rfl
  | drawmode page semi => exact decode_encode_environment (.inl ⟨page, semi, rfl, rfl⟩)
  | areaTl x y => exact decode_encode_environment (.inr (.inl ⟨x, y, rfl, rfl⟩))
  | areaBr x y => exact decode_encode_environment (.inr (.inr (.inl ⟨x, y, rfl, rfl⟩)))
  | offset dx dy => exact decode_encode_environment (.inr (.inr (.inr ⟨dx, dy, rfl, rfl⟩)))
  | line rest | gp0Unknown00 rest | gp0Unknown80 rest | gp0UnknownA0 rest | gp0UnknownC0 rest =>
    rw [encode, decode_refused_group rest (by decide), refusedCommand, extract_high, extract_low]
    rfl
  | gp0UnknownE0 op arg => exact decode_encode_gp0UnknownE0 wf
  | _ =>
    obtain ⟨w0, args, other⟩ := command
    cases other

/-- A refused command word is well formed unless it is one of an environment command (R121). -/
theorem refusedCommand_wellFormed {w0 : Word} (environment : (opOf w0).toNat ∉ environmentBytes) :
    (refusedCommand w0).wellFormed = true := by
  rw [opOf_mem_environmentBytes_iff] at environment
  unfold refusedCommand
  split
  case h_5 group =>
    have low : w0.extractLsb' 24 5 ∉ [1#5, 3#5, 4#5, 5#5] :=
      fun mem => environment ⟨BitVec.eq_of_toNat_eq group, mem⟩
    simpa [Instr.wellFormed, and_assoc] using low
  all_goals rfl

theorem wellFormed_of_map {α : Type} {make : α → Instr} (wf : ∀ p, (make p).wellFormed = true) {packet : Option α}
    {i : Instr} (h : packet.map make = some i) : i.wellFormed = true := by
  obtain ⟨p, -, rfl⟩ := Option.map_eq_some_iff.1 h
  exact wf p

/-- The decoder gives well-formed GP0 commands only: the operand types of the packets hold what the encoding can say. -/
theorem commandOf_wellFormed {w0 : Word} {args : List Word} {i : Instr} (h : commandOf w0 args = some i) :
    i.wellFormed = true := by
  unfold commandOf at h
  split at h
  case h_65 | h_66 | h_67 | h_68 =>
    cases args <;> cases h
    rfl
  case h_69 =>
    cases h
    exact refusedCommand_wellFormed (by simp_all [environmentBytes])
  all_goals exact wellFormed_of_map (fun _ => rfl) h

/-! ## Every format -/

/-- Settles O1: each of the four formats by its own round trip. -/
theorem everyInstructionDecodesFromItsEncoding : Obligations.EveryInstructionDecodesFromItsEncoding := by
  intro i wf
  match word : encode i with
  | .reg a => exact word ▸ decode_encode_register ⟨a, word⟩ wf
  | .chctl ch ctl => exact word ▸ decode_encode_chctl ⟨ch, ctl, word⟩ wf
  | .llhdr h => exact word ▸ decode_encode_llhdr ⟨h, word⟩
  | .gp0 w0 args => exact word ▸ decode_encode_gp0 ⟨w0, args, word⟩ wf

/-- Settles O2: what each of the four formats decodes to is well formed. -/
theorem everyDecodedInstructionIsWellFormed : Obligations.EveryDecodedInstructionIsWellFormed := by
  intro e i decoded
  cases e with
  | reg a => exact decodeReg_wellFormed decoded
  | chctl ch ctl => exact decodeChctl_wellFormed decoded
  | llhdr h =>
    cases decoded
    exact decodeHeader_wellFormed h
  | gp0 w0 args =>
    rw [decode, decodeGp0] at decoded
    split at decoded
    · cases decoded
      exact commandOf_wellFormed ‹_›
    · cases decoded

/-- Settles O3: each word is evaluated. -/
theorem sampleWordsDecodeAsTheRulesSay : Obligations.SampleWordsDecodeAsTheRulesSay := by
  unfold Obligations.SampleWordsDecodeAsTheRulesSay
  decide

end Sys2Proof.Machine
end

section
/-! PROOFS. The DMA registers (40_dma_registers.md): what a write stores and when it triggers (R151 to R155, R162), what a
read returns (R156 to R160), the offsets that select none (R161), the events of `dma_interrupt` (R163). -/

namespace Sys2Proof.Machine

/-! ## The trigger -/

/-- The mode is Manual exactly if both bits of `sync_mode` are clear (30_encoding.md R104). -/
theorem manualMode_iff (ctl : Word) :
    ctl.extractLsb' 9 2 = 0#2 ↔ ctl.getLsbD 9 = false ∧ ctl.getLsbD 10 = false := by
  have bits : ∀ mode : BitVec 2, mode = 0#2 ↔ mode.getLsbD 0 = false ∧ mode.getLsbD 1 = false := by decide
  simp [bits]

/-- A channel is active by `enable`, and in Manual mode by `manual_trigger` too (10_state.md R40). -/
theorem ctlActive_iff (ctl : Word) : ctlActive ctl = true ↔
    (ctl.getLsbD 24 = true ∧ (ctl.getLsbD 9 = false ∧ ctl.getLsbD 10 = false → ctl.getLsbD 28 = true)) := by
  rw [← manualMode_iff, ctlActive, Bool.and_eq_true, Bool.or_eq_true, bne_iff_ne, ne_eq, ← imp_iff_not_or]

/-- The control word of an active channel encodes the transfer that it selects (R103, 41_dma_block_transfer.md R180). -/
theorem decode_chctl_of_active {ctl : Word} (active : ctlActive ctl = true) (ch : Chan) :
    decode (.chctl ch ctl) = .ok (xferInstr ch ctl (selectXfer ch ctl)) :=
  decodeChctl_of_enabled ((ctlActive_iff ctl).1 active).1 ch

/-- `do_transfer` runs the transfer that the channel's control word selects (R180). -/
theorem doTransfer_eq_exec (ch : Chan) (s : State) :
    doTransfer ch s = exec (xferInstr ch (s.chan ch).ctl (selectXfer ch (s.chan ch).ctl)) s := by
  unfold doTransfer
  dsimp only
  cases selectXfer ch (s.chan ch).ctl <;> rfl

theorem trigger_of_inactive {ch : Chan} {s : State} (idle : ctlActive (s.chan ch).ctl = false) :
    trigger ch s = .next s.done := by
  rw [trigger, idle]
  rfl

/-- The trigger of an active channel runs what its control word decodes to (R162). -/
theorem trigger_of_active {ch : Chan} {s : State} {ctl : Word} {i : Instr} (holds : (s.chan ch).ctl = ctl)
    (active : ctlActive ctl = true) (decoded : decode (.chctl ch ctl) = .ok i) : trigger ch s = exec i s := by
  subst holds
  obtain rfl := Except.ok.inj (decoded.symm.trans (decode_chctl_of_active active ch))
  rw [trigger, if_pos active, doTransfer_eq_exec]

/-- Settles O24: each store leaves the control word that `trigger_of_active` reads. -/
theorem aWriteThatLeavesAChannelActiveRunsItsTransfer : Obligations.AWriteThatLeavesAChannelActiveRunsItsTransfer := by
  intro ch v s
  refine ⟨ctlActive_iff, fun ctl active => ⟨_, decode_chctl_of_active active ch⟩, fun i active decoded => ⟨?_, ?_⟩,
    fun i active decoded => ?_⟩
  · exact trigger_of_active (by rw [State.chan_setBase_same]) active decoded
  · exact trigger_of_active (by rw [State.chan_setBlock_same]) active decoded
  · exact trigger_of_active (by rw [State.chan_setCtl_same]) active decoded

/-- Settles O23: each store leaves a control word that `trigger_of_inactive` takes; other channels by `PerChan.get_set`. -/
theorem channelRegisterWritesStoreTheirValue : Obligations.ChannelRegisterWritesStoreTheirValue := by
  intro ch v s
  refine ⟨fun idle => ⟨?_, ?_⟩, fun idle => ?_, fun ch' r => PerChan.get_set s.chans ch ch' r⟩
  · exact trigger_of_inactive (by rwa [State.chan_setBase_same])
  · exact trigger_of_inactive (by rwa [State.chan_setBlock_same])
  · exact trigger_of_inactive (by rwa [State.chan_setCtl_same])

/-! ## The global registers -/

/-- Settles O25: the round trip of the encoding, and one update of the state. -/
theorem writingDmaControlStoresTheWord : Obligations.WritingDmaControlStoresTheWord :=
  fun v _ => ⟨decode_encode_register (i := .dmaWrControl v) ⟨_, rfl⟩ rfl, rfl⟩

/-- A store of `dma_interrupt` emits one event exactly if `master_flag` rose (R163). -/
theorem setInterrupt_irqEvents_eq_add_irqEdge (s : State) (i : BitVec 31) :
    (s.setInterrupt i).irqEvents = s.irqEvents + irqEdge s (s.setInterrupt i) := by
  change (if !masterFlag s.dmaInterrupt && masterFlag i then s.irqEvents + 1 else s.irqEvents) =
    s.irqEvents + if !masterFlag s.dmaInterrupt && masterFlag i then 1 else 0
  split <;> rfl

theorem exec_dmaWrInterrupt_irqEvents {v : Word} {s t : State} (h : exec (.dmaWrInterrupt v) s = .next t) :
    t.irqEvents = s.irqEvents + irqEdge s t := by
  cases h
  exact setInterrupt_irqEvents_eq_add_irqEdge s _

/-- Settles O26: the stored bits by `interruptWrite_getLsbD`, the event by the store's own rule. -/
theorem writingTheInterruptRegisterClearsFlagsWrittenOne :
    Obligations.WritingTheInterruptRegisterClearsFlagsWrittenOne := by
  intro v s
  refine ⟨decode_encode_register (i := .dmaWrInterrupt v) ⟨_, rfl⟩ rfl, _, rfl, rfl, fun b low => ?_, fun b flag _ => ?_,
    exec_dmaWrInterrupt_irqEvents rfl⟩
  · exact (interruptWrite_getLsbD s.dmaInterrupt v b).trans (if_pos low)
  · exact (interruptWrite_getLsbD s.dmaInterrupt v b).trans (if_neg (by omega))

/-! ## Events over all instructions -/

/-- Where `dma_interrupt` is as it was, `master_flag` has not risen. -/
theorem irqEdge_eq_zero {s t : State} (same : t.dmaInterrupt = s.dmaInterrupt) : irqEdge s t = 0 := by
  rw [irqEdge, same, Bool.not_and_self, if_neg Bool.false_ne_true]

theorem StartsFrom.irqEvents {i : Instr} {s f : State} (h : StartsFrom i s f) : f.irqEvents = s.irqEvents := by
  rcases h with rfl | ⟨ch, v, ⟨-, rfl⟩ | ⟨-, rfl⟩ | ⟨-, rfl⟩⟩ <;> rfl

/-- Neither a store to a channel nor the words that move touch `dma_interrupt` or emit an event: the end does both. -/
theorem MovesAndEnds.irqEvents {i : Instr} {s t : State} (h : MovesAndEnds i s t) :
    t.irqEvents = s.irqEvents + irqEdge s t := by
  obtain ⟨f, u, e, a, start, ⟨-, -, interrupt, events, -⟩, ends, rfl⟩ := h
  have edge : irqEdge u e = irqEdge s (e.setListAddr a) := by
    unfold irqEdge
    rw [interrupt, start.dmaInterrupt, State.setListAddr_dmaInterrupt]
  rw [State.setListAddr_irqEvents, ends.irqEvents, edge, events, start.irqEvents]

/-- Settles O12: an instruction writes `dma_control`, writes `dma_interrupt`, or moves words and ends. -/
theorem oneInterruptEventPerRiseOfTheMasterFlag : Obligations.OneInterruptEventPerRiseOfTheMasterFlag := by
  intro i s t h
  rcases exec_movesAndEnds h with ⟨v, rfl⟩ | ⟨v, rfl⟩ | moves
  · cases h
    exact (Nat.add_eq_left.2 (irqEdge_eq_zero rfl)).symm
  · exact exec_dmaWrInterrupt_irqEvents h
  · exact moves.irqEvents

/-! ## Reads -/

/-- Register `k` of every channel lies at the same distance from register `k` of channel 0 (20_memory.md R77). -/
theorem chanAddr_eq_add (ch : Chan) (k : Nat) :
    chanAddr ch k = (0x1F801080#32 + BitVec.ofNat 32 (4 * k)) + BitVec.ofNat 32 (16 * ch.num) := by
  rw [chanAddr, BitVec.add_assoc, Nat.add_comm, BitVec.ofNat_add]

/-- A read at the address of register `k` of a channel decodes as its encoding does (R100). -/
theorem decode_channelRead (ch : Chan) (k : Nat) {i : Instr} (encoded : encode i = regAccess .read (chanAddr ch k) 0)
    (wf : i.wellFormed = true) :
    decode (.reg ⟨.read, (0x1F801080#32 + BitVec.ofNat 32 (4 * k)) + BitVec.ofNat 32 (16 * ch.num), .word, 0⟩) =
      .ok i := by
  have decoded := decode_encode_register ⟨_, encoded⟩ wf
  rwa [encoded, chanAddr_eq_add] at decoded

/-- Settles O28: the round trips of the encodings, and the answers; the 24 bits of a base stand below a zero byte. -/
theorem registerReadsReturnTheRegister : Obligations.RegisterReadsReturnTheRegister := by
  intro ch s
  have extended : (s.chan ch).base.setWidth 32 = 0#8 ++ (s.chan ch).base := BitVec.setWidth_eq_append (by decide)
  refine ⟨decode_channelRead ch 0 rfl rfl, decode_channelRead ch 1 rfl rfl, decode_channelRead ch 2 rfl rfl,
    decode_encode_register (i := .dmaRdControl) ⟨_, rfl⟩ rfl,
    decode_encode_register (i := .dmaRdInterrupt) ⟨_, rfl⟩ rfl, ?_, rfl, rfl, rfl, rfl⟩
  rw [← extended]
  rfl

/-! ## The offsets that select no register -/

theorem chan_ofNum_eq_none {k : Nat} (h : Chan.ofNum k = none) : 7 ≤ k := by
  by_contra low
  obtain ⟨ch, rfl⟩ := exists_chan_num (Nat.lt_of_not_le low)
  cases ch <;> cases h

/-- Only the offsets `0xiC` and `0x78` of the window give `DMA.UNMAPPED` (R77, R161): the last word of every row, and the
third of the row of the global registers. -/
theorem offset_of_dmaAccess_eq_dmaUnmapped {seg seg' : Segment} {op op' : BusOp} {m v v' : Word} {off : UnmappedOffset}
    (aligned : m.toNat % 4 = 0) (h : dmaAccess seg op m v = .dmaUnmapped seg' off op' v') :
    m.toNat % 16 = 12 ∨ m.toNat % 128 = 0x78 := by
  have row : (m.extractLsb' 4 3).toNat = m.toNat / 16 % 8 := by
    rw [BitVec.extractLsb'_toNat, Nat.shiftRight_eq_div_pow]
  have word : (m.extractLsb' 2 2).toNat = m.toNat / 4 % 4 := by
    rw [BitVec.extractLsb'_toNat, Nat.shiftRight_eq_div_pow]
  have last : m.toNat / 4 % 4 ≠ 0 → m.toNat / 4 % 4 ≠ 1 → m.toNat / 4 % 4 ≠ 2 → m.toNat % 16 = 12 := by omega
  have third : 7 ≤ m.toNat / 16 % 8 → m.toNat / 4 % 4 = 2 → m.toNat % 128 = 0x78 := by omega
  unfold dmaAccess at h
  rw [row, word] at h
  split at h
  case h_7 | h_8 | h_15 | h_16 => exact .inl (last ‹_› ‹_› ‹_›)
  case h_13 | h_14 => exact .inr (third (chan_ofNum_eq_none ‹_›) ‹_›)
  all_goals cases h

/-- `DMA.UNMAPPED` keeps the mirror, the place and the operation of the access that gave it (R161). -/
theorem eq_of_dmaAccess_eq_dmaUnmapped {seg seg' : Segment} {op op' : BusOp} {m v v' : Word} {off : UnmappedOffset}
    (window : inDmaWindow m = true) (aligned : m.toNat % 4 = 0)
    (h : dmaAccess seg op m v = .dmaUnmapped seg' off op' v') : seg' = seg ∧ off.addr = m ∧ op' = op := by
  obtain ⟨place, rfl⟩ := exists_unmappedOffset window (offset_of_dmaAccess_eq_dmaUnmapped aligned h)
  obtain ⟨data, access⟩ := dmaAccess_unmappedOffset seg place op v
  cases access.symm.trans h
  exact ⟨rfl, rfl, rfl⟩

/-- What decodes to an instruction is an aligned word access to one of the block's own registers (R78). -/
theorem access_of_decodeReg_ok {a : Access} {i : Instr} (h : decodeReg a = .ok i) :
    AtRegister (maskAddr a.addr) ∧ a.width = .word ∧ (maskAddr a.addr).toNat % 4 = 0 := by
  by_cases own : AtRegister (maskAddr a.addr)
  case neg => cases (decodeReg_notRegister own).symm.trans h
  by_cases width : a.width = .word
  case neg => cases (decodeReg_wrongWidth own width).symm.trans h
  by_cases aligned : (maskAddr a.addr).toNat % 4 = 0
  case neg => cases (decodeReg_unaligned own width aligned).symm.trans h
  exact ⟨own, width, aligned⟩

/-- Only an access to the DMA window decodes to `DMA.UNMAPPED`: at the GP0 ingress a read is refused and a write is
`GP0.WR` (R79). -/
theorem inDmaWindow_of_decodeReg_eq_dmaUnmapped {a : Access} {seg : Segment} {off : UnmappedOffset} {op : BusOp} {v : Word}
    (h : decodeReg a = .ok (.dmaUnmapped seg off op v)) : inDmaWindow (maskAddr a.addr) = true := by
  obtain ⟨window | gp0, width, aligned⟩ := access_of_decodeReg_ok h
  · exact window
  · cases access : a.op with
    | read => cases (decodeReg_gp0_read gp0 width aligned access).symm.trans h
    | write => cases (decodeReg_gp0_write gp0 width aligned access).symm.trans h

/-- Settles O29: the error is the instruction's only effect; the address as issued is the mirror's bits and the offset. -/
theorem unmappedOffsetsEndInABusError : Obligations.UnmappedOffsetsEndInABusError := by
  refine ⟨fun _ _ _ _ _ => rfl, fun a seg off op v h => ?_⟩
  obtain ⟨-, width, aligned⟩ := access_of_decodeReg_ok h
  have window := inDmaWindow_of_decodeReg_eq_dmaUnmapped h
  have access := Except.ok.inj ((decodeReg_dmaWindow window width aligned).symm.trans h)
  obtain ⟨rfl, place, rfl⟩ := eq_of_dmaAccess_eq_dmaUnmapped window aligned access
  exact ⟨by rw [place, segmentBits_or_maskAddr], width, rfl⟩

end Sys2Proof.Machine
end

section
/-! PROOFS. What every block transfer shares (41_dma_block_transfer.md R180, R182, R186): the finish, the count of
words, and the invalid modes, which transfer nothing. -/

namespace Sys2Proof.Machine

/-! ## The finish (R186) -/

theorem Chan.num_lt (ch : Chan) : ch.num < 7 := by
  cases ch <;> decide

theorem ctlClearStart_getLsbD (ctl : Word) (b : Nat) :
    (ctlClearStart ctl).getLsbD b = (ctl.getLsbD b && b != 24 && b != 28) := by
  have mask : ∀ b, b < 32 → (0xEEFFFFFF#32).getLsbD b = (b != 24 && b != 28) := by decide
  rw [ctlClearStart, BitVec.getLsbD_and, Bool.and_assoc]
  by_cases low : b < 32
  · rw [mask b low]
  · rw [BitVec.getLsbD_of_ge ctl b (by omega), Bool.false_and, Bool.false_and]

/-- A control word without its start bits is that of an idle channel (10_state.md R40). -/
theorem ctlActive_ctlClearStart (ctl : Word) : ctlActive (ctlClearStart ctl) = false := by
  have disabled : (ctlClearStart ctl).getLsbD 24 = false :=
    (ctlClearStart_getLsbD ctl 24).trans (by rw [bne_self_eq_false, Bool.and_false, Bool.false_and])
  rw [ctlActive, disabled, Bool.false_and]

theorem interruptSetFlag_getLsbD (i : BitVec 31) (ch : Chan) (b : Nat) :
    (interruptSetFlag i ch).getLsbD b = (i.getLsbD b || b == 24 + ch.num) := by
  have := Chan.num_lt ch
  rw [interruptSetFlag, BitVec.getLsbD_or, BitVec.getLsbD_shiftLeft, BitVec.getLsbD_one]
  congr 1
  rw [Bool.eq_iff_iff]
  simp only [Bool.and_eq_true, decide_eq_true_eq, Bool.not_eq_true', decide_eq_false_iff_not, beq_iff_eq]
  omega

theorem transferFinished_done (ch : Chan) (s : State) : transferFinished ch s.done = transferFinished ch s :=
  transferFinished_with_result ch s .done

/-- The registers of the finished channel, and of every other. -/
theorem transferFinished_chan (ch ch' : Chan) (s : State) :
    (transferFinished ch s).chan ch' =
      if ch' = ch then { s.chan ch with ctl := ctlClearStart (s.chan ch).ctl } else s.chan ch' := by
  rw [State.chan, transferFinished_chans, PerChan.get_set]
  rfl

/-- Settles O30: the control word by `ctlClearStart_getLsbD`, the flag by `interruptSetFlag_getLsbD`. -/
theorem aFinishedTransferClearsStartAndSetsItsFlag : Obligations.AFinishedTransferClearsStartAndSetsItsFlag := by
  rintro ch s t rfl
  have own := (transferFinished_chan ch ch s).trans (if_pos rfl)
  rw [own]
  refine ⟨?_, fun ch' other => (transferFinished_chan ch ch' s).trans (if_neg other), rfl, rfl,
    ctlClearStart_getLsbD _, fun b => ?_, transferFinished_irqEvents ch s, ctlActive_ctlClearStart _⟩
  · unfold transferFinished
    dsimp only
    split <;> rfl
  · rw [transferFinished_dmaInterrupt]
    split
    · rename_i enabled
      rw [interruptSetFlag_getLsbD, enabled, Bool.and_true]
    · rename_i disabled
      rw [Bool.eq_false_iff.2 disabled, Bool.and_false, Bool.or_false]

/-! ## Counts (R182) -/

theorem counts_wordCount (ctl block : Word) : Counts ctl block (wordCount ctl block) := by
  have mode : (ctl.extractLsb' 9 2).toNat = ctl.toNat / 512 % 4 := by
    rw [BitVec.extractLsb'_toNat, Nat.shiftRight_eq_div_pow]
  have low : (block.extractLsb' 0 16).toNat = block.toNat % 65536 := BitVec.extractLsb'_toNat ..
  have high : (block.extractLsb' 16 16).toNat = block.toNat / 65536 := by
    rw [BitVec.extractLsb'_toNat, Nat.shiftRight_eq_div_pow]
    exact Nat.mod_eq_of_lt (Nat.div_lt_of_lt_mul block.isLt)
  unfold wordCount
  rw [low, high]
  refine ⟨fun manual => if_pos (BitVec.eq_of_toNat_eq ?_), fun request => if_neg fun manual => ?_⟩
  · exact mode.trans manual
  · rw [manual, request] at mode
    cases mode

/-! ## Invalid modes (R180) -/

theorem ctlActive_of_sync {ctl : Word} (enabled : WellFormed.enabled ctl = true) (mode : WellFormed.sync ctl ≠ 0#2) :
    ctlActive ctl = true := by
  have mode' : (ctl.extractLsb' 9 2 != 0#2) = true := bne_iff_ne.2 mode
  rw [ctlActive, mode', Bool.true_or, Bool.and_true]
  exact enabled

/-- A control word that selects an invalid mode leaves its channel active. -/
theorem ctlActive_of_xferInvalid {ch : Chan} {ctl : Word} (wf : (Instr.xferInvalid ch ctl).wellFormed = true) :
    ctlActive ctl = true := by
  simp only [Instr.wellFormed, Bool.and_eq_true, Bool.or_eq_true, beq_iff_eq] at wf
  obtain ⟨enabled, mode | ⟨mode, -⟩⟩ := wf
  all_goals exact ctlActive_of_sync enabled (by rw [mode]; decide)

/-- Settles O34: the stored control word is active and decodes to `XFER.INVALID`, which only raises. -/
theorem anInvalidModeChangesNothingAndStaysActive : Obligations.AnInvalidModeChangesNothingAndStaysActive := by
  intro ch ctl s
  refine ⟨rfl, fun wf => ⟨?_, ctlActive_of_xferInvalid wf⟩⟩
  exact trigger_of_active (by rw [State.chan_setCtl_same]) (ctlActive_of_xferInvalid wf)
    (decode_encode_chctl ⟨ch, ctl, rfl⟩ wf)

end Sys2Proof.Machine
end

section
/-! PROOFS. The words that a `FromRam` transfer sends (41_dma_block_transfer.md R188): those of its cursors, in order,
to a device's record or to GP0. -/

namespace Sys2Proof.Machine

/-- The RAM words of `n` cursors in order, the first of them number `k`. -/
def wordsFrom (ram : List Host.Cell) (base : BitVec 24) (step : Word) (k n : Nat) : List Word :=
  (List.range' k n).map fun j => ramRead32 ram (cursor base step j).toNat

theorem wordsFrom_zero (ram : List Host.Cell) (base : BitVec 24) (step : Word) (n : Nat) :
    wordsFrom ram base step 0 n = cursorWords ram base step n := by
  rw [wordsFrom, cursorWords, List.range_eq_range']

theorem wordsFrom_succ (ram : List Host.Cell) (base : BitVec 24) (step : Word) (k n : Nat) :
    wordsFrom ram base step k (n + 1) =
      ramRead32 ram (cursor base step k).toNat :: wordsFrom ram base step (k + 1) n := by
  rw [wordsFrom, List.range'_succ]
  rfl

/-- The state with words sent to the device of channel `ch` (R184, log entry 10). -/
def State.sent (ch : Chan) (ws : List Word) (s : State) : State :=
  { s with devOut := s.devOut ++ ws.map fun w => (ch, w) }

@[simp] theorem State.sent_nil (ch : Chan) (s : State) : s.sent ch [] = s := by
  simp [State.sent]

theorem State.sent_cons (ch : Chan) (w : Word) (ws : List Word) (s : State) :
    s.sent ch (w :: ws) = (devSend ch w s).sent ch ws := by
  simp [State.sent, devSend]

/-- To an external device the words are recorded in order, and none of them ends in an error (R184). -/
theorem blockFromRam_eq_record {ch : Chan} (external : ch ≠ .gpu) (base : BitVec 24) {step : Word}
    (aligned : step.toNat % 4 = 0) (n k : Nat) (s : State) :
    blockFromRam ch step n (cursor base step k) s =
      .next (transferFinished ch (s.sent ch (wordsFrom s.ram base step k n))) := by
  induction n generalizing k s with
  | zero => simp [blockFromRam, wordsFrom]
  | succ n ih =>
    have sent : sendToPort ch (ramRead32 s.ram (cursor base step k).toNat) s =
        .next (devSend ch (ramRead32 s.ram (cursor base step k).toNat) s).done := if_neg external
    rw [blockFromRam, sent, cursor_succ base step aligned, thenIfOk_next, wordsFrom_succ, State.sent_cons]
    exact (ih (k + 1) _).trans (congrArg Host.Outcome.next (transferFinished_done ch ((devSend ch _ s).sent ch _)))

/-- To the Gpu the words are pushed to GP0 until one of them ends in an error, and without one the transfer finishes
(R192). -/
theorem blockFromRam_gpu (base : BitVec 24) {step : Word} (aligned : step.toNat % 4 = 0) (n k : Nat) (s : State) :
    blockFromRam .gpu step n (cursor base step k) s =
      thenIfOk (pushWords (wordsFrom s.ram base step k n) s) fun u => .next (transferFinished .gpu u) := by
  induction n generalizing k s with
  | zero => exact congrArg Host.Outcome.next (transferFinished_done .gpu s).symm
  | succ n ih =>
    obtain ⟨u, pushed, frame, -⟩ := transferPush_spec (ramRead32 s.ram (cursor base step k).toNat) s
    rw [blockFromRam, wordsFrom_succ, pushWords, sendToPort, if_pos rfl, pushed, thenIfOk_next, thenIfOk_next]
    split
    · rename_i failed
      rw [thenIfOk_next, if_pos failed]
    · rw [cursor_succ base step aligned, ih, frame.ram]

theorem exec_xferBlockFromram_gpu (ctl : Word) (s : State) :
    exec (.xferBlockFromram .gpu ctl) s =
      thenIfOk (pushWords (cursorWords s.ram (s.chan .gpu).base (stepOf ctl) (wordCount ctl (s.chan .gpu).block)) s)
        fun u => .next (transferFinished .gpu u) := by
  change blockFromRam .gpu (stepOf ctl) (wordCount ctl (s.chan .gpu).block) (startAddr (s.chan .gpu).base) s = _
  rw [← cursor_zero _ (stepOf ctl), blockFromRam_gpu _ (stepOf_mod ctl), wordsFrom_zero]

theorem exec_xferBlockFromram_external {ch : Chan} (external : ch ≠ .gpu) (ctl : Word) (s : State) :
    exec (.xferBlockFromram ch ctl) s = .next (transferFinished ch
      (s.sent ch (cursorWords s.ram (s.chan ch).base (stepOf ctl) (wordCount ctl (s.chan ch).block)))) := by
  change blockFromRam ch (stepOf ctl) (wordCount ctl (s.chan ch).block) (startAddr (s.chan ch).base) s = _
  rw [← cursor_zero _ (stepOf ctl), blockFromRam_eq_record external _ (stepOf_mod ctl), wordsFrom_zero]

theorem exec_xferBlockFromram_ram {ch : Chan} {ctl : Word} {s t : State}
    (h : exec (.xferBlockFromram ch ctl) s = .next t) : t.ram = s.ram := by
  obtain ⟨t', u, ends, ram, -, -, how⟩ := blockFromRam_spec ch (stepOf ctl)
    (wordCount ctl (s.chan ch).block) (startAddr (s.chan ch).base) s
  obtain rfl := Host.Outcome.next.inj (ends.symm.trans h)
  rcases how with rfl | rfl
  · exact ram
  · rwa [transferFinished_ram]

/-- Settles O31: the words of the cursors, recorded for a device or pushed to GP0. -/
theorem fromRamSendsTheWordsOfTheCursorsInOrder : Obligations.FromRamSendsTheWordsOfTheCursorsInOrder := by
  rintro ch ctl s n ws wf rfl rfl
  refine ⟨counts_wordCount .., decode_encode_chctl ⟨ch, ctl, rfl⟩ wf, fun t => exec_xferBlockFromram_ram,
    fun external => exec_xferBlockFromram_external external ctl s, ?_⟩
  rintro rfl
  obtain ⟨u, pushed, -⟩ := pushWords_spec
    (cursorWords s.ram (s.chan .gpu).base (stepOf ctl) (wordCount ctl (s.chan .gpu).block)) s
  refine ⟨u, pushed, ?_⟩
  rw [exec_xferBlockFromram_gpu, pushed, thenIfOk_next]
  exact (apply_ite Host.Outcome.next ..).symm

end Sys2Proof.Machine
end

section
/-! PROOFS. The words that a transfer stores at its cursors (41_dma_block_transfer.md R189, R190): a later word over an
earlier one at the same address, every other byte as it was. -/

namespace Sys2Proof.Machine

/-! ## Words stored at cursors (R189, R190) -/

/-- RAM after word number 0, 1, ..., `n - 1` of `word` has been stored at its cursor, in that order. -/
def storedAt (base : BitVec 24) (step : Word) (word : Nat → Word) (ram : List Host.Cell) : Nat → List Host.Cell
  | 0 => ram
  | n + 1 => ramWrite32 (storedAt base step word ram n) (cursor base step n).toNat (word n)

/-- The last word at an address is read back there. -/
theorem ramRead32_storedAt {base : BitVec 24} {step : Word} (word : Nat → Word) (ram : List Host.Cell) {n k : Nat}
    (last : LastAt base step n k) :
    ramRead32 (storedAt base step word ram n) (cursor base step k).toNat = word k := by
  induction n with
  | zero => exact absurd last.1 (Nat.not_lt_zero k)
  | succ n ih =>
    obtain ⟨low, later⟩ := last
    rw [storedAt]
    by_cases newest : k = n
    · rw [newest, ramRead32_write32_same]
    · have before : k < n := by omega
      exact (ramRead32_write32_disjoint _ _ (dmaAddr_apart (later n before (Nat.lt_succ_self n)))).trans
        (ih ⟨before, fun k' after below => later k' after (Nat.lt_succ_of_lt below)⟩)

/-- A byte in none of the words is as it was. -/
theorem ramRead8_storedAt {base : BitVec 24} {step : Word} (word : Nat → Word) (ram : List Host.Cell) {n a : Nat}
    (outside : ∀ k, k < n → ¬ inWord (cursor base step k) a) :
    ramRead8 (storedAt base step word ram n) a = ramRead8 ram a := by
  induction n with
  | zero => rfl
  | succ n ih =>
    rw [storedAt, ramRead8_write32_outside _ _ (outside n (Nat.lt_succ_self n))]
    exact ih fun k below => outside k (Nat.lt_succ_of_lt below)

/-! ## Words received (R189) -/

/-- The state after `k` words from the port of `ch` have been stored at the cursors. -/
def receivedState (ch : Chan) (step : Word) (s : State) (k : Nat) : State :=
  { s with
    ram := storedAt (s.chan ch).base step (received s ch) s.ram k
    devIn := s.devIn.set ch ((s.devIn.get ch).drop k)
    devDraws := s.devDraws + (k - (s.devIn.get ch).length) }

theorem receivedState_zero (ch : Chan) (step : Word) (s : State) : receivedState ch step s 0 = s := by
  simp [receivedState, storedAt]

/-- Word number `k` is the next that is laid ready, or a free value when none is (R184, log entry 9). -/
theorem receiveWord_receivedState (ch : Chan) (step : Word) (s : State) (k : Nat) :
    receiveWord ch (cursor (s.chan ch).base step k) (receivedState ch step s k) = receivedState ch step s (k + 1) := by
  have ready : (receivedState ch step s k).devIn.get ch = (s.devIn.get ch).drop k := PerChan.get_set_same ..
  unfold receiveWord devRecv
  rw [ready]
  by_cases laid : k < (s.devIn.get ch).length
  · have word : received s ch k = (s.devIn.get ch)[k] := dif_pos laid
    have noDraw : k - (s.devIn.get ch).length = 0 := by omega
    have noDraw' : k + 1 - (s.devIn.get ch).length = 0 := by omega
    rw [List.drop_eq_getElem_cons laid]
    simp [receivedState, storedAt, word, noDraw, noDraw']
  · have word : received s ch k = Config.devWord ch.num (s.devDraws + (k - (s.devIn.get ch).length)) := dif_neg laid
    have draw : k + 1 - (s.devIn.get ch).length = k - (s.devIn.get ch).length + 1 := by omega
    have empty : (s.devIn.get ch).drop k = [] := List.drop_eq_nil_of_le (by omega)
    have empty' : (s.devIn.get ch).drop (k + 1) = [] := List.drop_eq_nil_of_le (by omega)
    rw [empty]
    simp [receivedState, storedAt, word, draw, empty, empty', Nat.add_assoc]

theorem blockToRam_receivedState (ch : Chan) {step : Word} (aligned : step.toNat % 4 = 0) (s : State) (n k : Nat) :
    blockToRam ch step n (cursor (s.chan ch).base step k) (receivedState ch step s k) =
      transferFinished ch (receivedState ch step s (k + n)) := by
  induction n generalizing k with
  | zero => rfl
  | succ n ih =>
    rw [blockToRam, receiveWord_receivedState, cursor_succ _ _ aligned, ih, Nat.add_right_comm, Nat.add_assoc]

/-- Settles O32: after as many words as counted the state is `receivedState`. -/
theorem toRamStoresTheReceivedWordsAtTheCursors : Obligations.ToRamStoresTheReceivedWordsAtTheCursors := by
  rintro ch ctl s n - rfl
  refine ⟨counts_wordCount .., storedAt (s.chan ch).base (stepOf ctl) (received s ch) s.ram _, ?_,
    fun k last => ramRead32_storedAt _ _ last, fun a outside => ramRead8_storedAt _ _ outside⟩
  have run := blockToRam_receivedState ch (stepOf_mod ctl) s (wordCount ctl (s.chan ch).block) 0
  rw [receivedState_zero, cursor_zero, Nat.zero_add] at run
  exact congrArg Host.Outcome.next run

/-! ## The Otc words (R187, R190) -/

/-- Otc word number `k` of `n`: the link to the word below its cursor, or the end of the chain. -/
def otcLink (base : BitVec 24) (step : Word) (n k : Nat) : Word :=
  if k + 1 = n then 0x00FFFFFF#32 else cursor base step k - 4#32

theorem otcWord_cursor (base : BitVec 24) (step : Word) (k rest : Nat) :
    otcWord (cursor base step k) rest = otcLink base step (k + (rest + 1)) k :=
  if_congr (by omega) rfl rfl

theorem otcWords_storedAt (base : BitVec 24) {step : Word} (aligned : step.toNat % 4 = 0) (ram : List Host.Cell)
    (m k : Nat) :
    otcWords step m (cursor base step k) (storedAt base step (otcLink base step (k + m)) ram k) =
      storedAt base step (otcLink base step (k + m)) ram (k + m) := by
  induction m generalizing k with
  | zero => rfl
  | succ m ih =>
    have total : k + (m + 1) = k + 1 + m := by omega
    rw [otcWords, otcWord_cursor, cursor_succ base step aligned, ← storedAt, total]
    exact ih (k + 1)

/-- RAM after the Otc words. -/
theorem otcState_ram (ctl : Word) (s : State) :
    (otcState ctl s).ram = storedAt (s.chan .otc).base (stepOf ctl)
      (otcLink (s.chan .otc).base (stepOf ctl) (wordCount ctl (s.chan .otc).block)) s.ram
      (wordCount ctl (s.chan .otc).block) := by
  have run := otcWords_storedAt (s.chan .otc).base (stepOf_mod ctl) s.ram (wordCount ctl (s.chan .otc).block) 0
  rwa [Nat.zero_add, cursor_zero] at run

theorem ramRead32_otcState {ctl : Word} {s : State} {k : Nat}
    (last : LastAt (s.chan .otc).base (stepOf ctl) (wordCount ctl (s.chan .otc).block) k) :
    ramRead32 (otcState ctl s).ram (cursor (s.chan .otc).base (stepOf ctl) k).toNat =
      otcLink (s.chan .otc).base (stepOf ctl) (wordCount ctl (s.chan .otc).block) k := by
  rw [otcState_ram, ramRead32_storedAt _ _ last]

/-- Settles O33: the Otc words are `otcLink`, stored at their cursors. -/
theorem otcWritesTheChainOfLinks : Obligations.OtcWritesTheChainOfLinks := by
  rintro ctl s n - rfl
  refine ⟨counts_wordCount .., (otcState ctl s).ram, rfl, fun k last => ramRead32_otcState last, fun a outside => ?_⟩
  rw [otcState_ram, ramRead8_storedAt _ _ outside]

end Sys2Proof.Machine
end

section
/-! PROOFS. A transfer that ends in a `GpuDecodeError` (41_dma_block_transfer.md R192): only what GP0 words reach has
changed, and the fault mark is left. -/

namespace Sys2Proof.Machine

/-! ## Errors inside a transfer (R192) -/

/-- The state ends an access in a `GpuDecodeError`. -/
def EndsInDecodeError (t : State) : Prop := ∃ e, t.result = .error e ∧ e.isGpuDecode = true

theorem State.markFault_streamFault_ne_none (s : State) (e : BlockError) : (s.markFault e).streamFault ≠ none := by
  cases h : s.streamFault <;> simp [State.markFault, h]

theorem markTransferFault_streamFault {s : State} (h : EndsInDecodeError (markTransferFault s)) :
    (markTransferFault s).streamFault ≠ none := by
  obtain ⟨e, result, decode⟩ := h
  obtain ⟨m, same⟩ := markTransferFault_eq s
  have before : s.result = .error e := by rwa [same] at result
  have marked : markTransferFault s = s.markFault e := by
    simp only [markTransferFault, before, decode, if_true]
  rw [marked]
  exact State.markFault_streamFault_ne_none s e

/-- A word that a transfer pushes and that ends in a `GpuDecodeError` leaves the fault mark. -/
theorem transferPush_streamFault {w : Word} {s t : State} (h : transferPush w s = .next t)
    (failed : EndsInDecodeError t) : t.streamFault ≠ none := by
  obtain ⟨u, -, rfl⟩ := mapNext_eq_next h
  exact markTransferFault_streamFault failed

theorem not_endsInDecodeError_of_done {t : State} (h : t.result = .done) : ¬ EndsInDecodeError t := by
  rintro ⟨e, result, -⟩
  cases h.symm.trans result

/-- Words pushed that end in a `GpuDecodeError` have changed only what GP0 words reach, and leave the fault mark. -/
theorem pushWords_of_decodeError {ws : List Word} {s t : State} (h : pushWords ws s = .next t)
    (failed : EndsInDecodeError t) : GpuOnly s t ∧ t.streamFault ≠ none := by
  constructor
  · obtain ⟨t', pushed, frame, -⟩ := pushWords_spec ws s
    obtain rfl := Host.Outcome.next.inj (pushed.symm.trans h)
    exact frame
  · induction ws generalizing s with
    | nil =>
      cases h
      exact absurd failed (not_endsInDecodeError_of_done rfl)
    | cons w ws ih =>
      obtain ⟨u, pushed, ⟨-, rfl⟩ | ⟨-, rest⟩⟩ := thenIfOk_eq_next h
      · exact transferPush_streamFault pushed failed
      · exact ih rest

theorem exec_xferBlockFromram_of_decodeError {ctl : Word} {s t : State}
    (h : exec (.xferBlockFromram .gpu ctl) s = .next t) (failed : EndsInDecodeError t) :
    GpuOnly s t ∧ t.streamFault ≠ none := by
  rw [exec_xferBlockFromram_gpu] at h
  obtain ⟨u, pushed, ⟨-, rfl⟩ | ⟨-, finished⟩⟩ := thenIfOk_eq_next h
  · exact pushWords_of_decodeError pushed failed
  · cases finished
    exact absurd failed (not_endsInDecodeError_of_done (transferFinished_result .gpu u))

/-! ## Errors inside a walk (R192, 42_dma_linked_list.md R203) -/

/-- The payload of a packet is pushed as the words at its addresses. -/
theorem pushPayload_eq_pushWords (addr : Word) (n k : Nat) (s : State) :
    pushPayload addr n k s =
      pushWords ((List.range' k n).map fun j => ramRead32 s.ram (payloadAddr addr j).toNat) s := by
  induction n generalizing k s with
  | zero => rfl
  | succ n ih =>
    obtain ⟨u, pushed, frame, -⟩ := transferPush_spec (ramRead32 s.ram (payloadAddr addr k).toNat) s
    rw [pushPayload, List.range'_succ, List.map_cons, pushWords, pushed, thenIfOk_next, thenIfOk_next, ih, frame.ram]

theorem pushPayload_of_decodeError {addr : Word} {n k : Nat} {s t : State} (h : pushPayload addr n k s = .next t)
    (failed : EndsInDecodeError t) : GpuOnly s t ∧ t.streamFault ≠ none := by
  rw [pushPayload_eq_pushWords] at h
  exact pushWords_of_decodeError h failed

theorem GpuOnly.setListAddr {s t : State} (h : GpuOnly s t) (a : Word) :
    GpuOnly (s.setListAddr a) (t.setListAddr a) := by
  unfold GpuOnly at *
  rw [h]
  rfl

/-- What `LL.NEXT` answers: the error of a payload word, or the cursor moved after the payload (42_dma_linked_list.md
R208). -/
theorem execLlNext_eq_next {size : Byte} {next : BitVec 23} {s t : State} (h : execLlNext size next s = .next t) :
    (pushPayload s.listAddr size.toNat 1 s = .next t ∧ t.result.isError = true) ∨
      ∃ u, GpuOnly s u ∧ u.result.isError = false ∧ t = u.setListAddr (dmaAddr (next.setWidth 32)) := by
  obtain ⟨u, pushed, ⟨error, rfl⟩ | ⟨noError, moved⟩⟩ := thenIfOk_eq_next h
  · exact .inl ⟨pushed, error⟩
  · obtain ⟨u', pushed', frame, -⟩ := pushPayload_moved s.listAddr size.toNat 1 s
    obtain rfl := Host.Outcome.next.inj (pushed'.symm.trans pushed)
    exact .inr ⟨u', frame, noError, (Host.Outcome.next.inj moved).symm⟩

/-- The walk at a header whose bit 23 ends the list (42_dma_linked_list.md R204). -/
theorem walkList_of_last {s : State} (last : (ramRead32 s.ram s.listAddr.toNat).getLsbD 23 = true) (cap : Nat) :
    walkList (cap + 1) s = execLlEnd ((ramRead32 s.ram s.listAddr.toNat).extractLsb' 24 8)
      ((ramRead32 s.ram s.listAddr.toNat).extractLsb' 0 23) s :=
  if_pos last

/-- The walk at a header that leads on (42_dma_linked_list.md R204). -/
theorem walkList_of_link {s : State} (link : (ramRead32 s.ram s.listAddr.toNat).getLsbD 23 = false) (cap : Nat) :
    walkList (cap + 1) s = thenIfOk (execLlNext ((ramRead32 s.ram s.listAddr.toNat).extractLsb' 24 8)
      ((ramRead32 s.ram s.listAddr.toNat).extractLsb' 0 23) s) (walkList cap) :=
  if_neg (Bool.eq_false_iff.1 link)

/-- The same of the payload of the packet at the cursor, which it leaves where it was. -/
theorem pushPayload_of_decodeError_atCursor {n : Nat} {s t : State} (h : pushPayload s.listAddr n 1 s = .next t)
    (failed : EndsInDecodeError t) : GpuOnly (s.setListAddr t.listAddr) t ∧ t.streamFault ≠ none := by
  obtain ⟨frame, marked⟩ := pushPayload_of_decodeError h failed
  exact ⟨by rwa [setListAddr_self s frame.listAddr.symm], marked⟩

/-- A walk that ends in a `GpuDecodeError` has changed only what GP0 words reach and the cursor, and leaves the fault
mark. -/
theorem walkList_of_decodeError {cap : Nat} {s t : State} (h : walkList cap s = .next t)
    (failed : EndsInDecodeError t) : GpuOnly (s.setListAddr t.listAddr) t ∧ t.streamFault ≠ none := by
  induction cap generalizing s with
  | zero =>
    cases h
    obtain ⟨e, runaway, decode⟩ := failed
    cases runaway
    cases decode
  | succ cap ih =>
    cases header : (ramRead32 s.ram s.listAddr.toNat).getLsbD 23 with
    | true =>
      rw [walkList_of_last header] at h
      obtain ⟨u, pushed, ⟨-, rfl⟩ | ⟨-, finished⟩⟩ := thenIfOk_eq_next h
      · exact pushPayload_of_decodeError_atCursor pushed failed
      · cases finished
        exact absurd failed (not_endsInDecodeError_of_done (transferFinished_result .gpu u))
    | false =>
      rw [walkList_of_link header] at h
      obtain ⟨u, packet, ⟨error, rfl⟩ | ⟨noError, rest⟩⟩ := thenIfOk_eq_next h
      · rcases execLlNext_eq_next packet with ⟨pushed, -⟩ | ⟨v, -, noError, rfl⟩
        · exact pushPayload_of_decodeError_atCursor pushed failed
        · cases error.symm.trans noError
      · rcases execLlNext_eq_next packet with ⟨-, error⟩ | ⟨v, frame, -, rfl⟩
        · cases error.symm.trans noError
        · obtain ⟨frame', marked⟩ := ih rest
          exact ⟨(frame.setListAddr t.listAddr).trans frame', marked⟩

/-- `do_linked_list` that ends in a `GpuDecodeError`, from a state that holds no cursor. -/
theorem linkedList_of_decodeError {cap : Nat} {s t : State} (idle : s.listAddr = 0) (h : linkedList cap s = .next t)
    (failed : EndsInDecodeError t) : GpuOnly s t ∧ t.streamFault ≠ none := by
  obtain ⟨u, walk, rfl⟩ := mapNext_eq_next h
  obtain ⟨frame, marked⟩ := walkList_of_decodeError walk failed
  refine ⟨?_, marked⟩
  have cursorless : GpuOnly (s.setListAddr 0) (u.setListAddr 0) := frame.setListAddr 0
  rwa [setListAddr_self s idle] at cursorless

/-- Settles O35: the words pushed have changed only what GP0 words reach, and the walk gives its cursor back. -/
theorem aDecodeErrorInATransferLeavesTheChannelArmed : Obligations.ADecodeErrorInATransferLeavesTheChannelArmed := by
  rintro ctl s t e ⟨-, -, -, idle⟩ result decode (h | h)
  · exact exec_xferBlockFromram_of_decodeError h ⟨e, result, decode⟩
  · exact linkedList_of_decodeError idle h ⟨e, result, decode⟩

end Sys2Proof.Machine
end

section
/-! PROOFS. The Otc chain as a linked list (41_dma_block_transfer.md R190, 42_dma_linked_list.md R207): a walk along it
reaches its end and pushes nothing. -/

namespace Sys2Proof.Machine

/-! ## Headers without a payload (42_dma_linked_list.md R204) -/

theorem dmaAddr_getLsbD_23 (a : Word) : (dmaAddr a).getLsbD 23 = false := by
  simp [dmaAddr, Config.addrMask]

/-- A header word that is a masked address has no payload. -/
theorem dmaAddr_size (a : Word) : (dmaAddr a).extractLsb' 24 8 = 0#8 := by
  apply BitVec.eq_of_toNat_eq
  rw [BitVec.extractLsb'_toNat, Nat.shiftRight_eq_div_pow, dmaAddr_toNat]
  change _ = 0
  omega

/-- The `next` field of a header, masked, is the header word masked (42_dma_linked_list.md R204). -/
theorem dmaAddr_nextField (h : Word) : dmaAddr ((h.extractLsb' 0 23).setWidth 32) = dmaAddr h := by
  apply BitVec.eq_of_toNat_eq
  rw [dmaAddr_toNat, dmaAddr_toNat, BitVec.toNat_setWidth, BitVec.extractLsb'_toNat, Nat.shiftRight_zero]
  omega

/-! ## Backward cursors (R181, R185) -/

/-- A start address and its word lie in RAM (R183). -/
theorem startAddr_lt (base : BitVec 24) : (startAddr base).toNat + 3 < 2097152 := dmaAddr_lt _

/-- A backward cursor that has not run past address 0 lies four bytes below the one before. -/
theorem cursor_backward_toNat (base : BitVec 24) {k : Nat} (above : 4 * k ≤ (startAddr base).toNat) :
    (cursor base 0xFFFFFFFC#32 k).toNat = (startAddr base).toNat - 4 * k := by
  induction k with
  | zero => rw [cursor_zero]; rfl
  | succ k ih =>
    have before := ih (by omega)
    have aligned : (cursor base 0xFFFFFFFC#32 k).toNat % 4 = 0 := dmaAddr_aligned _
    have inside := startAddr_lt base
    rw [← cursor_succ base _ (by decide), nextAddr, dmaAddr_toNat, BitVec.toNat_add, BitVec.toNat_ofNat]
    omega

/-- The next backward cursor that has not run past address 0 is the link that the Otc channel writes (R187). -/
theorem cursor_backward_succ (base : BitVec 24) {k : Nat} (above : 4 * (k + 1) ≤ (startAddr base).toNat) :
    cursor base 0xFFFFFFFC#32 k - 4#32 = cursor base 0xFFFFFFFC#32 (k + 1) := by
  apply BitVec.eq_of_toNat_eq
  have here := cursor_backward_toNat base (k := k) (by omega)
  have next := cursor_backward_toNat base above
  bv_omega

/-- Backward cursors that have not run past address 0 are all different. -/
theorem lastAt_backward (base : BitVec 24) {n k : Nat} (above : 4 * (n - 1) ≤ (startAddr base).toNat) (low : k < n) :
    LastAt base 0xFFFFFFFC#32 n k := by
  refine ⟨low, fun k' after below same => ?_⟩
  have here := cursor_backward_toNat base (k := k) (by omega)
  have later := cursor_backward_toNat base (k := k') (by omega)
  rw [same] at later
  omega

/-! ## Walks along empty packets (R207) -/

theorem transferFinished_setListAddr_comm (ch : Chan) (s : State) (a : Word) :
    transferFinished ch (s.setListAddr a) = (transferFinished ch s).setListAddr a := by
  unfold transferFinished
  dsimp only
  rw [State.setCtl_dmaInterrupt, State.setCtl_dmaInterrupt, State.setListAddr_dmaInterrupt]
  split <;> rfl

/-- `LL.NEXT` of an empty packet only moves the cursor (42_dma_linked_list.md R207, R208). -/
theorem execLlNext_empty (h : Word) (s : State) :
    execLlNext 0#8 (h.extractLsb' 0 23) s = .next (s.done.setListAddr (dmaAddr h)) := by
  rw [← dmaAddr_nextField]
  rfl

/-- A walk along a list whose packets are all empty finishes and pushes nothing (R207). -/
theorem walkList_of_emptyPackets {as : List Word} {cap : Nat} {s : State} (list : IsList s.ram as)
    (start : as.head? = some s.listAddr) (empty : ∀ a ∈ as, (ramRead32 s.ram a.toNat).extractLsb' 24 8 = 0#8)
    (short : as.length ≤ cap) : ∃ a, walkList cap s = .next ((transferFinished .gpu s).setListAddr a) := by
  induction as generalizing cap s with
  | nil => exact list.elim
  | cons a as ih =>
    obtain rfl := Option.some.inj start
    obtain ⟨cap, rfl⟩ := Nat.exists_eq_add_one_of_ne_zero (Nat.ne_of_gt (Nat.lt_of_lt_of_le (Nat.succ_pos _) short))
    have size := empty s.listAddr (List.mem_cons_self ..)
    cases as with
    | nil =>
      rw [walkList_of_last list, size]
      refine ⟨s.listAddr, congrArg Host.Outcome.next ?_⟩
      rw [setListAddr_self _ (transferFinished_listAddr .gpu s)]
      exact transferFinished_done .gpu s
    | cons b as =>
      obtain ⟨link, target, list'⟩ := list
      rw [walkList_of_link link, size, execLlNext_empty, target, thenIfOk_next]
      obtain ⟨a, walk⟩ := ih (s := s.done.setListAddr b) list' rfl
        (fun a mem => empty a (List.mem_cons_of_mem _ mem)) (Nat.le_of_succ_le_succ short)
      rw [transferFinished_setListAddr_comm, transferFinished_done] at walk
      exact ⟨a, walk⟩

/-- `do_linked_list` along such a list. -/
theorem linkedList_of_emptyPackets {as : List Word} {cap : Nat} {s : State} (list : IsList s.ram as)
    (start : as.head? = some (startAddr (s.chan .gpu).base))
    (empty : ∀ a ∈ as, (ramRead32 s.ram a.toNat).extractLsb' 24 8 = 0#8) (short : as.length ≤ cap) :
    linkedList cap s = .next ((transferFinished .gpu s).setListAddr 0) := by
  obtain ⟨a, walk⟩ :=
    walkList_of_emptyPackets (s := s.setListAddr (startAddr (s.chan .gpu).base)) list start empty short
  rw [linkedList, walk, mapNext_next, transferFinished_setListAddr_comm]
  rfl

/-! ## The chain (R187) -/

/-- The addresses of cursors `k` to `k + m`, the chain that the Otc words link. -/
def chain (base : BitVec 24) (step : Word) (k m : Nat) : List Word := (List.range' k (m + 1)).map (cursor base step)

/-- Words that link each cursor to the next, the last of them the end mark, are a list (42_dma_linked_list.md R204). -/
theorem isList_chain {ram : List Host.Cell} {base : BitVec 24} {step : Word} {n m k : Nat} (total : k + m + 1 = n)
    (link : ∀ j, j + 1 < n → ramRead32 ram (cursor base step j).toNat = cursor base step (j + 1))
    (last : ramRead32 ram (cursor base step (n - 1)).toNat = 0x00FFFFFF#32) : IsList ram (chain base step k m) := by
  induction m generalizing k with
  | zero =>
    obtain rfl : k = n - 1 := by omega
    change (ramRead32 ram (cursor base step (n - 1)).toNat).getLsbD 23 = true
    rw [last]
    rfl
  | succ m ih =>
    have rest := ih (k := k + 1) (by omega)
    refine ⟨?_, ?_, rest⟩
    · rw [link k (by omega)]
      exact dmaAddr_getLsbD_23 _
    · rw [link k (by omega)]
      exact dmaAddr_idem _

theorem stepOf_backward {ctl : Word} (backward : ctl.getLsbD 1 = true) : stepOf ctl = 0xFFFFFFFC#32 :=
  if_pos backward

/-- Each header of a backward Otc chain that does not run past address 0 is the cursor after it, or the end mark. -/
theorem ramRead32_otcState_backward {ctl : Word} {s : State} {n k : Nat} (backward : ctl.getLsbD 1 = true)
    (count : n = wordCount ctl (s.chan .otc).block) (above : 4 * (n - 1) ≤ (startAddr (s.chan .otc).base).toNat)
    (low : k < n) :
    ramRead32 (otcState ctl s).ram (cursor (s.chan .otc).base (stepOf ctl) k).toNat =
      if k + 1 = n then 0x00FFFFFF#32 else cursor (s.chan .otc).base (stepOf ctl) (k + 1) := by
  subst count
  have last := lastAt_backward (s.chan .otc).base above low
  rw [← stepOf_backward backward] at last
  rw [ramRead32_otcState last, otcLink]
  split
  · rfl
  · rw [stepOf_backward backward]
    exact cursor_backward_succ _ (by omega)

/-- Settles O39: the Otc words are a list by `isList_chain`, and every header of it has size 0. -/
theorem anOrderingTableIsAListThatDrawsNothing : Obligations.AnOrderingTableIsAListThatDrawsNothing := by
  intro ctl lctl s n _ backward count some above start
  have header : ∀ k, k < n → _ := fun k => ramRead32_otcState_backward backward count above
  have list : IsList (otcState ctl s).ram (chain (s.chan .otc).base (stepOf ctl) 0 (n - 1)) := by
    refine isList_chain (n := n) (by omega) (fun k low => ?_) ?_
    · rw [header k (by omega), if_neg (by omega)]
    · rw [header (n - 1) (by omega), if_pos (by omega)]
  have empty : ∀ a ∈ chain (s.chan .otc).base (stepOf ctl) 0 (n - 1),
      (ramRead32 (otcState ctl s).ram a.toNat).extractLsb' 24 8 = 0#8 := by
    intro a mem
    obtain ⟨k, inside, rfl⟩ := List.mem_map.1 mem
    have low := (List.mem_range'_1.1 inside).2
    rw [header k (by omega)]
    split
    · rfl
    · exact dmaAddr_size _
  have base : ((transferFinished .otc (otcState ctl s)).chan .gpu).base = (s.chan .gpu).base := by
    rw [transferFinished_chan]
    rfl
  refine ⟨transferFinished .otc (otcState ctl s), rfl, ?_⟩
  refine linkedList_of_emptyPackets (as := chain (s.chan .otc).base (stepOf ctl) 0 (n - 1)) ?_ ?_ ?_ ?_
  · rwa [transferFinished_ram]
  · rw [base, start, ← cursor_zero _ (stepOf ctl)]
    rfl
  · rwa [transferFinished_ram]
  · have inside := startAddr_lt (s.chan .otc).base
    rw [chain, List.length_map, List.length_range', Config.llCap]
    omega

end Sys2Proof.Machine
end

section
/-! PROOFS. GP0 words under a walk (43_gp0_ingress.md R216, 42_dma_linked_list.md R203): a word does the same wherever the
walk's cursor stands and whatever the outcome before it was, so the payloads of a list are pushed as one row of words. -/

namespace Sys2Proof.Machine

/-- The state with another cursor of the walk and another outcome before the next word. -/
def State.resumed (a : Word) (r : AccessResult) (s : State) : State := { s with listAddr := a, result := r }

/-- The operation does the same wherever the cursor stands and whatever the outcome before it was, and passes the cursor
on. -/
def Resumable (f : State → Out) : Prop :=
  ∀ (a : Word) (r : AccessResult) (s : State), f (s.resumed a r) = mapNext (f s) (·.setListAddr a)

/-! ## One word -/

theorem polygonTextured_resumable (op : BitVec 8) (raw semi : Bool) (col : Color) (tex : TexInfo) (v0 v1 v2 : Vert)
    (v3 : Option Vert) : Resumable (polygonTextured op raw semi col tex v0 v1 v2 v3) := by
  intro a r s
  unfold polygonTextured
  cases texturedType tex.page.depth <;> rfl

theorem rectTextured_resumable (op : BitVec 8) (raw semi : Bool) (col : Color) (v : Vertex) (t : Uv) (pal : Palette)
    (w h : Nat) : Resumable (rectTextured op raw semi col v t pal w h) := by
  intro a r s
  have page : (s.resumed a r).texPage = s.texPage := rfl
  unfold rectTextured
  rw [page]
  cases texturedType s.texPage.depth <;> rfl

/-- Only the textured commands branch, on the depth of their texture page. -/
theorem execCommand_resumable {i : Instr} (gp0 : isGp0 i = true) : Resumable (execCommand i) := by
  intro a r s
  cases i
  case triFT | triFTR | triFTS | triFTSR | quadFT | quadFTR | quadFTS | quadFTSR | triGT | triGTR | triGTS | triGTSR |
      quadGT | quadGTR | quadGTS | quadGTSR =>
    exact polygonTextured_resumable ..
  case rectVT | rectVTR | rectVTS | rectVTSR | rect1T | rect1TR | rect1TS | rect1TSR | rect8T | rect8TR | rect8TS |
      rect8TSR | rect16T | rect16TR | rect16TS | rect16TSR =>
    exact rectTextured_resumable ..
  case dmaWrBase | dmaWrBlock | dmaWrChctl | dmaRdBase | dmaRdBlock | dmaRdChctl | dmaWrControl | dmaWrInterrupt |
      dmaRdControl | dmaRdInterrupt | dmaUnmapped | gp0Wr | xferBlockFromram | xferBlockToram | xferBlockOtc |
      xferList | xferInvalid | llNext | llEnd =>
    cases gp0
  all_goals rfl

theorem executeWords_resumable (w0 : Word) (args : List Word) : Resumable (executeWords w0 args) := by
  intro a r s
  unfold executeWords decodeGp0
  cases command : commandOf w0 args with
  | some i => exact execCommand_resumable (commandOf_isGp0 command) a r s
  | none => rfl

theorem pushGp0_resumable (w : Word) : Resumable (pushGp0 w) := by
  intro a r s
  have buf : (s.resumed a r).gp0Buf = s.gp0Buf := rfl
  unfold pushGp0
  rw [buf]
  cases s.gp0Buf with
  | nil =>
    cases packetLen w with
    | error e => exact execCommand_resumable (refusedCommand_isGp0 w) a r s
    | ok n =>
      dsimp only
      split
      · exact executeWords_resumable w [] a r s
      · rfl
  | cons w0 args =>
    dsimp only
    cases packetLen w0 with
    | error e => rfl
    | ok n =>
      dsimp only
      split
      · exact executeWords_resumable w0 (args ++ [w]) a r { s with gp0Buf := [] }
      · rfl

theorem markTransferFault_setListAddr (s : State) (a : Word) :
    markTransferFault (s.setListAddr a) = (markTransferFault s).setListAddr a := by
  unfold markTransferFault
  rw [State.setListAddr_result]
  cases s.result with
  | error e =>
    dsimp only
    split <;> rfl
  | noneYet | done | value v => rfl

theorem transferPush_resumable (w : Word) : Resumable (transferPush w) := by
  intro a r s
  obtain ⟨t, pushed, -⟩ := pushGp0_spec w s
  rw [transferPush, transferPush, pushGp0_resumable, pushed]
  exact congrArg Host.Outcome.next (markTransferFault_setListAddr t a)

/-! ## Rows of words -/

/-- A row of words is pushed the same wherever the cursor stands. -/
theorem pushWords_setListAddr (ws : List Word) (s : State) (a : Word) :
    pushWords ws (s.setListAddr a) = mapNext (pushWords ws s) (·.setListAddr a) := by
  induction ws generalizing s with
  | nil => rfl
  | cons w ws ih =>
    obtain ⟨t, pushed, -⟩ := transferPush_spec w s
    have moved : transferPush w (s.setListAddr a) = .next (t.setListAddr a) :=
      (transferPush_resumable w a s.result s).trans (congrArg (mapNext · _) pushed)
    rw [pushWords, pushWords, pushed, moved, thenIfOk_next, thenIfOk_next, State.setListAddr_result, ih]
    split <;> rfl

/-- A row of words is pushed the same whatever the outcome before it was. -/
theorem pushWords_done (ws : List Word) (s : State) : pushWords ws s.done = pushWords ws s := by
  cases ws with
  | nil => rfl
  | cons w ws =>
    obtain ⟨t, pushed, frame, -⟩ := transferPush_spec w s
    have again : transferPush w s.done = .next (t.setListAddr s.listAddr) :=
      (transferPush_resumable w s.listAddr .done s).trans (congrArg (mapNext · _) pushed)
    rw [pushWords, pushWords, again, pushed, setListAddr_self t frame.listAddr]

/-- Words pushed in two parts: the second after the first, unless a word of the first ends in an error (R192). -/
theorem pushWords_append (ws ws' : List Word) (s : State) :
    pushWords (ws ++ ws') s = thenIfOk (pushWords ws s) (pushWords ws') := by
  induction ws generalizing s with
  | nil => exact (pushWords_done ws' s).symm
  | cons w ws ih =>
    obtain ⟨t, pushed, -⟩ := transferPush_spec w s
    rw [List.cons_append, pushWords, pushWords, pushed, thenIfOk_next, thenIfOk_next, ih]
    split
    · rename_i failed
      rw [thenIfOk_next, if_pos failed]
    · rfl

end Sys2Proof.Machine
end

section
/-! PROOFS. The packets of a list (42_dma_linked_list.md R203, R208, R209): a header pushes its payload, then moves the
cursor or finishes. -/

namespace Sys2Proof.Machine

/-- The first `n` words after the header at `addr`; `payloadWords` takes as many as the header counts (R203). -/
def wordsAfter (ram : List Host.Cell) (addr : Word) (n : Nat) : List Word :=
  (List.range n).map fun k => ramRead32 ram (dmaAddr (addr + BitVec.ofNat 32 (4 * (k + 1)))).toNat

theorem payloadWords_eq_wordsAfter (ram : List Host.Cell) (addr : Word) :
    payloadWords ram addr = wordsAfter ram addr ((ramRead32 ram addr.toNat).extractLsb' 24 8).toNat := rfl

theorem pushPayload_eq_wordsAfter (addr : Word) (n : Nat) (s : State) :
    pushPayload addr n 1 s = pushWords (wordsAfter s.ram addr n) s := by
  have numbers : List.range' 1 n = (List.range n).map (· + 1) := by
    rw [List.range'_eq_map_range]
    exact List.map_congr_left fun k _ => Nat.add_comm 1 k
  rw [pushPayload_eq_pushWords, numbers, List.map_map]
  rfl

/-- `next & 0x1FFFFC` (R208). -/
theorem dmaAddr_setWidth (next : BitVec 23) : dmaAddr (next.setWidth 32) = (0#9 ++ next) &&& 0x1FFFFC#32 := by
  rw [dmaAddr, BitVec.setWidth_eq_append (by decide)]
  rfl

/-- Settles O36: the round trips of the two headers, and the payload as a row of words. -/
theorem aListHeaderSendsItsPayloadThenContinuesOrEnds :
    Obligations.AListHeaderSendsItsPayloadThenContinuesOrEnds := by
  intro size next s ws
  refine ⟨decode_encode_llhdr (i := .llNext size next) ⟨_, rfl⟩, decode_encode_llhdr (i := .llEnd size next) ⟨_, rfl⟩, ?_⟩
  rintro rfl
  obtain ⟨u, pushed, -⟩ := pushWords_spec (wordsAfter s.ram s.listAddr size.toNat) s
  have payload := (pushPayload_eq_wordsAfter s.listAddr size.toNat s).trans pushed
  refine ⟨u, pushed, ?_, ?_⟩
  · change execLlNext size next s = _
    rw [execLlNext, payload, thenIfOk_next, dmaAddr_setWidth]
    exact (apply_ite Host.Outcome.next ..).symm
  · change execLlEnd size next s = _
    rw [execLlEnd, payload, thenIfOk_next]
    exact (apply_ite Host.Outcome.next ..).symm

end Sys2Proof.Machine
end

section
/-! PROOFS. Walks along a list (42_dma_linked_list.md R200 to R207): the payloads of its packets are pushed as one row of
words, then the transfer finishes or, at the cap, is aborted. -/

namespace Sys2Proof.Machine

/-! ## One packet of a walk -/

/-- The packet at the cursor leads on: its payload, then the walk goes on at the address of its header (R203, R204). -/
theorem walkList_succ_of_link {s : State} (link : (ramRead32 s.ram s.listAddr.toNat).getLsbD 23 = false) (cap : Nat) :
    walkList (cap + 1) s = thenIfOk (pushWords (payloadWords s.ram s.listAddr) s) fun t =>
      walkList cap (t.setListAddr (dmaAddr (ramRead32 s.ram s.listAddr.toNat))) := by
  obtain ⟨t, pushed, -⟩ := pushWords_spec (payloadWords s.ram s.listAddr) s
  rw [walkList_of_link link, execLlNext, pushPayload_eq_wordsAfter, ← payloadWords_eq_wordsAfter, pushed,
    dmaAddr_nextField, thenIfOk_next, thenIfOk_next]
  split
  · rename_i failed
    rw [thenIfOk_next, if_pos failed]
  · rename_i ok
    rw [thenIfOk_next, State.setListAddr_result, if_neg ok]

/-- The packet at the cursor ends the list: its payload, then the transfer finishes (R204, R206). -/
theorem walkList_succ_of_last {s : State} (last : (ramRead32 s.ram s.listAddr.toNat).getLsbD 23 = true) (cap : Nat) :
    walkList (cap + 1) s = thenIfOk (pushWords (payloadWords s.ram s.listAddr) s) fun t =>
      .next (transferFinished .gpu t) := by
  rw [walkList_of_last last, execLlEnd, pushPayload_eq_wordsAfter, payloadWords_eq_wordsAfter]

/-! ## Rows of payloads -/

/-- A transfer that pushes the words and, unless one of them raises an error, ends as `fin` says (R192). The cursor, which
does not outlive a walk, is left out of what it answers. -/
def pushThen (fin : State → State) (ws : List Word) (s : State) : Out :=
  mapNext (thenIfOk (pushWords ws s) fun t => .next (fin t)) (·.setListAddr 0)

theorem pushThen_of_pushWords {ws : List Word} {s u : State} (pushed : pushWords ws s = .next u) (fin : State → State) :
    pushThen fin ws s = .next ((if u.result.isError then u else fin u).setListAddr 0) := by
  rw [pushThen, pushed, thenIfOk_next, ← apply_ite Host.Outcome.next, mapNext_next]

/-- The end of a walk does not depend on where the cursor stands. -/
def CursorFree (fin : State → State) : Prop := ∀ s a, fin (State.setListAddr s a) = (fin s).setListAddr a

theorem pushThen_setListAddr {fin : State → State} (free : CursorFree fin) (ws : List Word) (s : State) (a : Word) :
    pushThen fin ws (s.setListAddr a) = pushThen fin ws s := by
  obtain ⟨u, pushed, -⟩ := pushWords_spec ws s
  have moved : pushWords ws (s.setListAddr a) = .next (u.setListAddr a) :=
    (pushWords_setListAddr ws s a).trans (congrArg (mapNext · _) pushed)
  rw [pushThen_of_pushWords pushed, pushThen_of_pushWords moved, State.setListAddr_result, free]
  split <;> rfl

/-- One packet more: its payload goes before the words of the rest of the walk. -/
theorem walk_of_link {s : State} {b : Word} {cap : Nat} {fin : State → State} {ws : List Word} (free : CursorFree fin)
    (link : (ramRead32 s.ram s.listAddr.toNat).getLsbD 23 = false)
    (target : dmaAddr (ramRead32 s.ram s.listAddr.toNat) = b)
    (rest : ∀ t, GpuOnly s t →
      mapNext (walkList cap (t.setListAddr b)) (·.setListAddr 0) = pushThen fin ws (t.setListAddr b)) :
    mapNext (walkList (cap + 1) s) (·.setListAddr 0) = pushThen fin (payloadWords s.ram s.listAddr ++ ws) s := by
  obtain ⟨t, pushed, frame, -⟩ := pushWords_spec (payloadWords s.ram s.listAddr) s
  rw [walkList_succ_of_link link, target, pushThen, pushWords_append, pushed, thenIfOk_next, thenIfOk_next]
  split
  · rename_i failed
    rw [thenIfOk_next, if_pos failed]
  · rw [rest t frame, pushThen_setListAddr free]
    rfl

/-- The walk of `XFER.LIST` as a row of words: where its cursor starts plays no part in what the words do. -/
theorem exec_xferList_of_walk {ctl : Word} {s u : State} {fin : State → State} {ws : List Word} (free : CursorFree fin)
    (walk : mapNext (walkList Config.llCap (s.setListAddr (startAddr (s.chan .gpu).base))) (·.setListAddr 0) =
      pushThen fin ws (s.setListAddr (startAddr (s.chan .gpu).base)))
    (pushed : pushWords ws s = .next u) :
    exec (.xferList ctl) s = .next ((if u.result.isError then u else fin u).setListAddr 0) :=
  walk.trans ((pushThen_setListAddr free ws s _).trans (pushThen_of_pushWords pushed fin))

/-! ## Lists within the cap (R206) -/

theorem transferFinished_cursorFree : CursorFree (transferFinished .gpu) :=
  transferFinished_setListAddr_comm .gpu

/-- A walk along a list within the cap pushes the payloads and finishes. -/
theorem walk_of_isList {as : List Word} {cap : Nat} {s : State} (list : IsList s.ram as)
    (start : as.head? = some s.listAddr) (short : as.length ≤ cap) :
    mapNext (walkList cap s) (·.setListAddr 0) =
      pushThen (transferFinished .gpu) (as.flatMap (payloadWords s.ram)) s := by
  induction as generalizing cap s with
  | nil => exact list.elim
  | cons a as ih =>
    obtain rfl := Option.some.inj start
    obtain ⟨cap, rfl⟩ := Nat.exists_eq_add_one_of_ne_zero (Nat.ne_of_gt (Nat.lt_of_lt_of_le (Nat.succ_pos _) short))
    rw [List.flatMap_cons]
    cases as with
    | nil => rw [walkList_succ_of_last list, List.flatMap_nil, List.append_nil, pushThen]
    | cons b as =>
      obtain ⟨link, target, list'⟩ := list
      refine walk_of_link transferFinished_cursorFree link target fun t frame => ?_
      rw [← frame.ram] at list' ⊢
      exact ih list' rfl (Nat.le_of_succ_le_succ short)

/-- Settles O37: the walk by `walk_of_isList`, taken to the instruction by `exec_xferList_of_walk`. -/
theorem aListWalkPushesEveryPayloadAndFinishes : Obligations.AListWalkPushesEveryPayloadAndFinishes := by
  intro ctl s as list start short
  obtain ⟨u, pushed, -⟩ := pushWords_spec (as.flatMap (payloadWords s.ram)) s
  have walk := walk_of_isList (s := s.setListAddr (startAddr (s.chan .gpu).base)) list start short
  exact ⟨u, pushed, exec_xferList_of_walk transferFinished_cursorFree walk pushed⟩

/-! ## Lists not ended at the cap (R205) -/

theorem runawayAbort_cursorFree : CursorFree runawayAbort := fun _ _ => rfl

/-- A walk along as many packets as the cap, none of them the last, pushes the payloads and is aborted. -/
theorem walk_of_isEndless {as : List Word} {s : State} (endless : IsEndless s.ram as)
    (start : as.head? = some s.listAddr) :
    mapNext (walkList as.length s) (·.setListAddr 0) = pushThen runawayAbort (as.flatMap (payloadWords s.ram)) s := by
  induction as generalizing s with
  | nil => cases start
  | cons a as ih =>
    obtain rfl := Option.some.inj start
    rw [List.flatMap_cons]
    cases as with
    | nil => exact walk_of_link runawayAbort_cursorFree endless rfl fun t _ => rfl
    | cons b as =>
      obtain ⟨link, target, endless'⟩ := endless
      refine walk_of_link runawayAbort_cursorFree link target fun t frame => ?_
      rw [← frame.ram] at endless' ⊢
      exact ih endless' rfl

theorem ctlClearEnable_getLsbD (ctl : Word) (b : Nat) :
    (ctlClearEnable ctl).getLsbD b = (ctl.getLsbD b && b != 24) := by
  have mask : ∀ b, b < 32 → (0xFEFFFFFF#32).getLsbD b = (b != 24) := by decide
  rw [ctlClearEnable, BitVec.getLsbD_and]
  by_cases low : b < 32
  · rw [mask b low]
  · rw [BitVec.getLsbD_of_ge ctl b (by omega), Bool.false_and, Bool.false_and]

/-- The registers of the Gpu channel after the abort, and of every other. -/
theorem runawayAbort_chan (s : State) (ch : Chan) :
    (runawayAbort s).chan ch =
      if ch = .gpu then { s.chan .gpu with ctl := ctlClearEnable (s.chan .gpu).ctl } else s.chan ch :=
  PerChan.get_set ..

/-- An event exactly if `master_flag` rose since the transfer began: the words have left `dma_interrupt` as it was. -/
theorem runawayAbort_irqEvents {s u : State} (frame : GpuOnly s u) :
    (runawayAbort u).irqEvents = s.irqEvents + irqEdge s (runawayAbort u) := by
  have ends : EndsLike (runawayAbort u) u := .inr (.inr rfl)
  rw [ends.irqEvents, frame.irqEvents, irqEdge, irqEdge, frame.dmaInterrupt]

/-- Settles O38: the walk by `walk_of_isEndless`, taken to the instruction by `exec_xferList_of_walk`; the words have left the
DMA registers as they were, so the bits after the abort are those of `ctlClearEnable_getLsbD` and
`interruptSetFlag_getLsbD`. -/
theorem aRunawayListIsAbortedAtTheCap : Obligations.ARunawayListIsAbortedAtTheCap := by
  intro ctl s as endless start cap
  obtain ⟨u, pushed, frame, -⟩ := pushWords_spec (as.flatMap (payloadWords s.ram)) s
  have walk := walk_of_isEndless (s := s.setListAddr (startAddr (s.chan .gpu).base)) endless start
  rw [cap] at walk
  have run := exec_xferList_of_walk (ctl := ctl) runawayAbort_cursorFree walk pushed
  refine ⟨u, pushed, fun failed => run.trans (by rw [if_pos failed]; rfl), fun ok => ?_⟩
  rw [ok, if_neg Bool.false_ne_true] at run
  have chan (ch : Chan) : u.chan ch = s.chan ch := congrArg (PerChan.get · ch) frame.chans
  have own : ((runawayAbort u).setListAddr 0).chan .gpu =
      { s.chan .gpu with ctl := ctlClearEnable (s.chan .gpu).ctl } := by
    rw [← chan]
    exact (runawayAbort_chan u .gpu).trans (if_pos rfl)
  have flag (b : Nat) : (runawayAbort u).dmaInterrupt.getLsbD b = (s.dmaInterrupt.getLsbD b || b == 26) := by
    rw [← frame.dmaInterrupt]
    exact interruptSetFlag_getLsbD u.dmaInterrupt .gpu b
  refine ⟨(runawayAbort u).setListAddr 0, run, rfl, rfl, fun ch other => ?_, ?_⟩
  · exact ((runawayAbort_chan u ch).trans (if_neg other)).trans (chan ch)
  · rw [own]
    exact ⟨rfl, rfl, ctlClearEnable_getLsbD _, flag, runawayAbort_irqEvents frame⟩

end Sys2Proof.Machine
end

section
/-! PROOFS. The length of a GP0 packet (43_gp0_ingress.md R217, R219): which command words are accepted, and that the
decoder takes exactly as many arguments as the command word announces. -/

namespace Sys2Proof.Machine

/-! ## Command words (R217) -/

/-- The command word begins a packet: it is a polygon's, a rectangle's or an environment command's (R217). -/
def Accepted (w0 : Word) : Prop :=
  w0.extractLsb' 29 3 = 1#3 ∨ w0.extractLsb' 29 3 = 3#3 ∨ (opOf w0).toNat ∈ environmentBytes

/-- The command bytes of the accepted words (R114). -/
theorem Accepted.byte {w0 : Word} (accepted : Accepted w0) :
    (32 ≤ (opOf w0).toNat ∧ (opOf w0).toNat < 64) ∨ (96 ≤ (opOf w0).toNat ∧ (opOf w0).toNat < 128) ∨
      (opOf w0).toNat ∈ environmentBytes := by
  have byte := opOf_toNat w0
  have low := (w0.extractLsb' 24 5).isLt
  rcases accepted with polygon | rectangle | environment
  · rw [polygon, BitVec.toNat_ofNat] at byte
    omega
  · rw [rectangle, BitVec.toNat_ofNat] at byte
    omega
  · exact .inr (.inr environment)

/-- `PacketLen` answers a length from 1 to 12 exactly for the accepted command words, and refuses the others (R217). -/
theorem packetLen_cases (w0 : Word) :
    (Accepted w0 ∧ ∃ n, packetLen w0 = .ok n ∧ 1 ≤ n ∧ n ≤ 12) ∨ (¬ Accepted w0 ∧ ∃ e, packetLen w0 = .error e) := by
  have environment : (opOf w0 = 0xE1#8 ∨ opOf w0 = 0xE3#8 ∨ opOf w0 = 0xE4#8 ∨ opOf w0 = 0xE5#8) ↔
      (opOf w0).toNat ∈ environmentBytes := by
    simp [environmentBytes, ← BitVec.toNat_inj]
  unfold packetLen
  dsimp only
  rw [Laws.PacketLength.group_of]
  split
  · rename_i polygon
    refine .inl ⟨.inl (BitVec.eq_of_toNat_eq polygon), _, rfl, by omega, ?_⟩
    split_ifs <;> omega
  · rename_i rectangle
    refine .inl ⟨.inr (.inl (BitVec.eq_of_toNat_eq rectangle)), _, rfl, by omega, ?_⟩
    split_ifs <;> omega
  · rename_i line
    refine .inr ⟨?_, _, rfl⟩
    rw [Accepted, opOf_mem_environmentBytes_iff, BitVec.eq_of_toNat_eq (y := 2#3) line]
    rintro (h | h | ⟨h, -⟩) <;> cases h
  · rename_i polygon rectangle _
    split
    · rename_i member
      exact .inl ⟨.inr (.inr (environment.1 member)), 1, rfl, by decide, by decide⟩
    · rename_i other
      refine .inr ⟨?_, _, rfl⟩
      rintro (group | group | member)
      · exact polygon (by rw [group]; rfl)
      · exact rectangle (by rw [group]; rfl)
      · exact other (environment.2 member)

theorem packetLen_ok {w0 : Word} {n : Nat} (len : packetLen w0 = .ok n) : Accepted w0 ∧ 1 ≤ n ∧ n ≤ 12 := by
  obtain ⟨accepted, m, len', bounds⟩ | ⟨-, e, refused⟩ := packetLen_cases w0
  · cases len'.symm.trans len
    exact ⟨accepted, bounds⟩
  · cases refused.symm.trans len

theorem packetLen_error {w0 : Word} {e : CommandRefusal} (refused : packetLen w0 = .error e) : ¬ Accepted w0 := by
  obtain ⟨-, n, len, -⟩ | ⟨refused', -⟩ := packetLen_cases w0
  · cases len.symm.trans refused
  · exact refused'

/-- The length depends on the command byte only (R217). -/
theorem packetLen_of_byte {w0 : Word} {k : Nat} (byte : (opOf w0).toNat = k) :
    packetLen w0 = packetLen (BitVec.ofNat 8 k ++ 0#24) := by
  have same : opOf (BitVec.ofNat 8 k ++ 0#24) = opOf w0 := by
    rw [opOf, extract_high, ← byte, BitVec.ofNat_toNat, BitVec.setWidth_eq]
  unfold packetLen
  rw [same]

/-! ## Packet formats (R118, R119) -/

/-- A packet format reads the lists of `k` words and no others. -/
def TakesExactly {α : Type} (ofWords : List Word → Option α) (k : Nat) : Prop :=
  ∀ args, (∃ p, ofWords args = some p) ↔ args.length = k

theorem takesExactly_of {α : Type} {ofWords : List Word → Option α} {k : Nat}
    (only : ∀ {args p}, ofWords args = some p → args.length = k)
    (every : ∀ f : Fin k → Word, ∃ p, ofWords (List.ofFn f) = some p) :
    TakesExactly ofWords k := by
  refine fun args => ⟨fun ⟨p, reads⟩ => only reads, ?_⟩
  rintro rfl
  simpa using every args.get

theorem TriFlat.takesExactly (w0 : Word) : TakesExactly (TriFlat.ofWords w0) 3 :=
  takesExactly_of (fun h => by unfold TriFlat.ofWords at h; split at h <;> cases h; rfl) fun _ => ⟨_, rfl⟩

theorem TriFlatTex.takesExactly (w0 : Word) : TakesExactly (TriFlatTex.ofWords w0) 6 :=
  takesExactly_of (fun h => by unfold TriFlatTex.ofWords at h; split at h <;> cases h; rfl) fun _ => ⟨_, rfl⟩

theorem QuadFlat.takesExactly (w0 : Word) : TakesExactly (QuadFlat.ofWords w0) 4 :=
  takesExactly_of (fun h => by unfold QuadFlat.ofWords at h; split at h <;> cases h; rfl) fun _ => ⟨_, rfl⟩

theorem QuadFlatTex.takesExactly (w0 : Word) : TakesExactly (QuadFlatTex.ofWords w0) 8 :=
  takesExactly_of (fun h => by unfold QuadFlatTex.ofWords at h; split at h <;> cases h; rfl) fun _ => ⟨_, rfl⟩

theorem TriGouraud.takesExactly (w0 : Word) : TakesExactly (TriGouraud.ofWords w0) 5 :=
  takesExactly_of (fun h => by unfold TriGouraud.ofWords at h; split at h <;> cases h; rfl) fun _ => ⟨_, rfl⟩

theorem TriGouraudTex.takesExactly (w0 : Word) : TakesExactly (TriGouraudTex.ofWords w0) 8 :=
  takesExactly_of (fun h => by unfold TriGouraudTex.ofWords at h; split at h <;> cases h; rfl) fun _ => ⟨_, rfl⟩

theorem QuadGouraud.takesExactly (w0 : Word) : TakesExactly (QuadGouraud.ofWords w0) 7 :=
  takesExactly_of (fun h => by unfold QuadGouraud.ofWords at h; split at h <;> cases h; rfl) fun _ => ⟨_, rfl⟩

theorem QuadGouraudTex.takesExactly (w0 : Word) : TakesExactly (QuadGouraudTex.ofWords w0) 11 :=
  takesExactly_of (fun h => by unfold QuadGouraudTex.ofWords at h; split at h <;> cases h; rfl) fun _ => ⟨_, rfl⟩

theorem RectVar.takesExactly (w0 : Word) : TakesExactly (RectVar.ofWords w0) 2 :=
  takesExactly_of (fun h => by unfold RectVar.ofWords at h; split at h <;> cases h; rfl) fun _ => ⟨_, rfl⟩

theorem RectVarTex.takesExactly (w0 : Word) : TakesExactly (RectVarTex.ofWords w0) 3 :=
  takesExactly_of (fun h => by unfold RectVarTex.ofWords at h; split at h <;> cases h; rfl) fun _ => ⟨_, rfl⟩

theorem RectFix.takesExactly (w0 : Word) : TakesExactly (RectFix.ofWords w0) 1 :=
  takesExactly_of (fun h => by unfold RectFix.ofWords at h; split at h <;> cases h; rfl) fun _ => ⟨_, rfl⟩

theorem RectFixTex.takesExactly (w0 : Word) : TakesExactly (RectFixTex.ofWords w0) 2 :=
  takesExactly_of (fun h => by unfold RectFixTex.ofWords at h; split at h <;> cases h; rfl) fun _ => ⟨_, rfl⟩

theorem oneWord_takesExactly (i : Instr) : TakesExactly (oneWord i) 0 :=
  takesExactly_of (fun h => by unfold oneWord at h; split at h <;> cases h; rfl) fun _ => ⟨_, rfl⟩

theorem TakesExactly.map {α β : Type} {ofWords : List Word → Option α} {k : Nat} (h : TakesExactly ofWords k)
    (make : α → β) : TakesExactly (fun args => (ofWords args).map make) k := by
  intro args
  rw [← h args]
  exact ⟨fun ⟨_, made⟩ => (Option.map_eq_some_iff.1 made).imp fun _ reads => reads.1,
    fun ⟨p, reads⟩ => ⟨make p, Option.map_eq_some_iff.2 ⟨p, reads, rfl⟩⟩⟩

/-! ## The decoder on a packet (R219) -/

/-- A row of the table: the command byte `k` announces one word more than the row's format reads. -/
theorem TakesExactly.row {ofWords : List Word → Option Instr} {m : Nat} (takes : TakesExactly ofWords m) {k : Nat}
    (row : packetLen (BitVec.ofNat 8 k ++ 0#24) = .ok (m + 1)) {w0 : Word} (byte : (opOf w0).toNat = k) {n : Nat}
    (len : packetLen w0 = .ok n) (args : List Word) : (∃ i, ofWords args = some i) ↔ args.length + 1 = n := by
  rw [packetLen_of_byte byte, row] at len
  cases len
  rw [takes args, Nat.add_right_cancel_iff]

/-- An accepted command word makes a command with as many words as it announces, and with no other number (R217, R219). -/
theorem commandOf_isSome_iff {w0 : Word} {n : Nat} (len : packetLen w0 = .ok n) (args : List Word) :
    (∃ i, commandOf w0 args = some i) ↔ args.length + 1 = n := by
  unfold commandOf
  split
  case h_1 byte | h_2 byte | h_3 byte | h_4 byte =>
    exact ((TriFlat.takesExactly w0).map _).row rfl byte len args
  case h_5 byte | h_6 byte | h_7 byte | h_8 byte =>
    exact ((TriFlatTex.takesExactly w0).map _).row rfl byte len args
  case h_9 byte | h_10 byte | h_11 byte | h_12 byte =>
    exact ((QuadFlat.takesExactly w0).map _).row rfl byte len args
  case h_13 byte | h_14 byte | h_15 byte | h_16 byte =>
    exact ((QuadFlatTex.takesExactly w0).map _).row rfl byte len args
  case h_17 byte | h_18 byte | h_19 byte | h_20 byte =>
    exact ((TriGouraud.takesExactly w0).map _).row rfl byte len args
  case h_21 byte | h_22 byte | h_23 byte | h_24 byte =>
    exact ((TriGouraudTex.takesExactly w0).map _).row rfl byte len args
  case h_25 byte | h_26 byte | h_27 byte | h_28 byte =>
    exact ((QuadGouraud.takesExactly w0).map _).row rfl byte len args
  case h_29 byte | h_30 byte | h_31 byte | h_32 byte =>
    exact ((QuadGouraudTex.takesExactly w0).map _).row rfl byte len args
  case h_33 byte | h_34 byte | h_35 byte | h_36 byte =>
    exact ((RectVar.takesExactly w0).map _).row rfl byte len args
  case h_37 byte | h_38 byte | h_39 byte | h_40 byte =>
    exact ((RectVarTex.takesExactly w0).map _).row rfl byte len args
  case h_41 byte | h_42 byte | h_43 byte | h_44 byte | h_49 byte | h_50 byte | h_51 byte | h_52 byte | h_57 byte |
      h_58 byte | h_59 byte | h_60 byte =>
    exact ((RectFix.takesExactly w0).map _).row rfl byte len args
  case h_45 byte | h_46 byte | h_47 byte | h_48 byte | h_53 byte | h_54 byte | h_55 byte | h_56 byte | h_61 byte |
      h_62 byte | h_63 byte | h_64 byte =>
    exact ((RectFixTex.takesExactly w0).map _).row rfl byte len args
  case h_65 byte | h_66 byte | h_67 byte | h_68 byte => exact (oneWord_takesExactly _).row rfl byte len args
  case h_69 =>
    obtain ⟨accepted, -⟩ := packetLen_ok len
    have bytes := accepted.byte
    grind [environmentBytes]

theorem commandOf_of_packetLen_error {w0 : Word} {e : CommandRefusal} (refused : packetLen w0 = .error e)
    (args : List Word) : commandOf w0 args = some (refusedCommand w0) := by
  have other := packetLen_error refused
  exact commandOf_refused (fun polygon => other (.inl polygon)) (fun rectangle => other (.inr (.inl rectangle)))
    (fun environment => other (.inr (.inr environment))) args

theorem decode_gp0_eq_ok_iff {w0 : Word} {args : List Word} {i : Instr} :
    decode (.gp0 w0 args) = .ok i ↔ commandOf w0 args = some i := by
  rw [decode, decodeGp0]
  cases commandOf w0 args <;> simp

theorem decode_gp0_isOk_iff {w0 : Word} {n : Nat} (len : packetLen w0 = .ok n) (args : List Word) :
    (∃ i, decode (.gp0 w0 args) = .ok i) ↔ args.length + 1 = n :=
  (exists_congr fun _ => decode_gp0_eq_ok_iff).trans (commandOf_isSome_iff len args)

/-- Settles O4: accepted words by `decode_gp0_isOk_iff`, refused ones by `commandOf_of_packetLen_error`. -/
theorem aPacketIsAcceptedExactlyAtItsLength : Obligations.APacketIsAcceptedExactlyAtItsLength := by
  intro w0 args
  refine ⟨fun n len => ?_, fun e refused => decode_gp0_of_commandOf (commandOf_of_packetLen_error refused args)⟩
  obtain ⟨-, positive, atMost⟩ := packetLen_ok len
  exact ⟨positive, atMost, decode_gp0_isOk_iff len args⟩

/-- Settles O42: at a length that is not the packet's the decoder gives no instruction, and the entry only raises. -/
theorem aWordVectorOfTheWrongLengthIsRefused : Obligations.AWordVectorOfTheWrongLengthIsRefused := by
  intro w0 args n s len wrong
  unfold runEvent
  dsimp only
  split
  · rename_i i decoded
    exact absurd ((decode_gp0_isOk_iff len args).1 ⟨i, decoded⟩) wrong
  · rfl

end Sys2Proof.Machine
end

section
/-! PROOFS. The GP0 ingress word by word (43_gp0_ingress.md R215, R216, R220): a word is queued, completes its packet or is
refused, so the words of a packet, one after another, are its command. -/

namespace Sys2Proof.Machine

/-! ## One word (R216) -/

theorem State.with_gp0Buf_of_empty {s : State} (empty : s.gp0Buf = []) : { s with gp0Buf := [] } = s := by
  rw [← empty]

/-- The words queued and the next word after them: the word begins a packet, or it goes on with one. -/
theorem joined_cases {buf : List Word} {w w0 : Word} {rest : List Word} (joined : buf ++ [w] = w0 :: rest) :
    (buf = [] ∧ w = w0 ∧ rest = []) ∨ ∃ args, buf = w0 :: args ∧ rest = args ++ [w] := by
  cases buf with
  | nil =>
    cases joined
    exact .inl ⟨rfl, rfl, rfl⟩
  | cons v args =>
    cases joined
    exact .inr ⟨args, rfl, rfl⟩

/-- A word that leaves its packet short is queued. -/
theorem pushGp0_queues {s : State} {w w0 : Word} {rest : List Word} (joined : s.gp0Buf ++ [w] = w0 :: rest) {n : Nat}
    (len : packetLen w0 = .ok n) (short : rest.length + 1 < n) :
    pushGp0 w s = .next { s with gp0Buf := w0 :: rest, result := .done } := by
  have queued : queueWord w s = { s with gp0Buf := w0 :: rest, result := .done } := by rw [queueWord, joined]
  rw [← queued]
  unfold pushGp0
  obtain ⟨buf, rfl, rfl⟩ | ⟨args, buf, rfl⟩ := joined_cases joined
  · simp only [buf, len]
    exact if_neg (Nat.ne_of_gt short)
  · rw [List.length_append, List.length_singleton] at short
    simp only [buf, len]
    exact if_neg (Nat.ne_of_gt short)

/-- The word that completes its packet empties the buffer and runs the packet. -/
theorem pushGp0_completes {s : State} {w w0 : Word} {rest : List Word} (joined : s.gp0Buf ++ [w] = w0 :: rest)
    (len : packetLen w0 = .ok (rest.length + 1)) : pushGp0 w s = executeWords w0 rest { s with gp0Buf := [] } := by
  unfold pushGp0
  obtain ⟨buf, rfl, rfl⟩ | ⟨args, buf, rfl⟩ := joined_cases joined
  · rw [State.with_gp0Buf_of_empty buf]
    simp only [buf, len]
    exact if_pos rfl
  · simp only [buf, len]
    exact if_pos (by rw [List.length_append, List.length_singleton])

/-- A refused first word is not queued (R217). -/
theorem pushGp0_refuses {s : State} {w : Word} (empty : s.gp0Buf = []) {e : CommandRefusal}
    (refused : packetLen w = .error e) : pushGp0 w s = exec (refusedCommand w) s := by
  rw [exec_gp0 (refusedCommand_isGp0 w)]
  unfold pushGp0
  simp only [empty, refused]

/-- The words queued do not begin with a refused word, and with one word more they are no longer than the packet. -/
theorem joined_of_bufferFramed {buf : List Word} (framed : bufferFramed buf = true) {w w0 : Word} {rest : List Word}
    (joined : buf ++ [w] = w0 :: rest) :
    (∀ n, packetLen w0 = .ok n → rest.length + 1 ≤ n) ∧ (∀ e, packetLen w0 = .error e → buf = []) := by
  obtain ⟨empty, -, rfl⟩ | ⟨args, rfl, rfl⟩ := joined_cases joined
  · exact ⟨fun n len => packetLen_pos len, fun _ _ => empty⟩
  · unfold bufferFramed at framed
    refine ⟨fun n len => ?_, fun e refused => ?_⟩
    · simp only [len, decide_eq_true_eq] at framed
      rwa [List.length_append, List.length_singleton]
    · simp only [refused] at framed
      cases framed

theorem executeWords_of_commandOf {w0 : Word} {args : List Word} {i : Instr} (command : commandOf w0 args = some i)
    (s : State) : executeWords w0 args s = exec i s := by
  rw [executeWords, decodeGp0, command, exec_gp0 (commandOf_isGp0 command)]

/-- Settles O40: `pushGp0_queues`, `pushGp0_completes` with the packet's command, and `pushGp0_refuses`. -/
theorem aGp0WordIsQueuedUntilItsPacketIsComplete : Obligations.AGp0WordIsQueuedUntilItsPacketIsComplete := by
  intro w w0 rest s framed joined
  obtain ⟨fits, accepted⟩ := joined_of_bufferFramed framed joined
  refine ⟨fun n len short => pushGp0_queues joined len short, fun n len complete => ?_, fits, fun e refused => ?_⟩
  · subst complete
    obtain ⟨i, command⟩ := (commandOf_isSome_iff len rest).2 rfl
    exact ⟨i, decode_gp0_of_commandOf command, commandOf_isGp0 command,
      (pushGp0_completes joined len).trans (executeWords_of_commandOf command _)⟩
  · have empty := accepted e refused
    obtain ⟨-, rfl, -⟩ | ⟨args, queued, -⟩ := joined_cases joined
    · have run : exec (.gp0Wr w) s = exec (refusedCommand w) s := pushGp0_refuses empty refused
      refine ⟨empty, run, fun t ends => ?_⟩
      obtain ⟨u, runs, -, buffer, -⟩ := execCommand_spec (refusedCommand w) s
      rw [run, exec_gp0 (refusedCommand_isGp0 w), runs] at ends
      cases ends
      rw [buffer, empty]
    · cases empty.symm.trans queued

/-! ## A packet (R215, R220) -/

/-- The outcome that stood before a command plays no part in it. -/
theorem exec_with_result {i : Instr} (gp0 : isGp0 i = true) (r : AccessResult) (s : State) :
    exec i { s with result := r } = exec i s := by
  obtain ⟨t, runs, frame, -⟩ := execCommand_spec i s
  rw [exec_gp0 gp0, exec_gp0 gp0, runs]
  have resumed : execCommand i { s with result := r } = mapNext (execCommand i s) (·.setListAddr s.listAddr) :=
    execCommand_resumable gp0 s.listAddr r s
  rw [resumed, runs, mapNext_next, setListAddr_self t frame.listAddr]

theorem writeGp0_singleton (w : Word) (s : State) : writeGp0 [w] s = exec (.gp0Wr w) s := by
  obtain ⟨t, pushed, -⟩ := pushGp0_spec w s
  have run : exec (.gp0Wr w) s = .next t := pushed
  rw [writeGp0, run, thenIfOk_next]
  exact ite_self _

/-- The last words of a packet, on a buffer that holds those before them, are the packet's command. -/
theorem writeGp0_of_joined {w0 : Word} {args : List Word} {i : Instr} (len : packetLen w0 = .ok (args.length + 1))
    (command : commandOf w0 args = some i) {ws : List Word} (more : ws ≠ []) {s : State}
    (joined : s.gp0Buf ++ ws = w0 :: args) : writeGp0 ws s = exec i { s with gp0Buf := [] } := by
  induction ws generalizing s with
  | nil => exact absurd rfl more
  | cons w ws ih =>
    cases ws with
    | nil =>
      rw [writeGp0_singleton]
      exact (pushGp0_completes joined len).trans (executeWords_of_commandOf command _)
    | cons v ws =>
      obtain ⟨v0, rest, queued⟩ := List.exists_cons_of_ne_nil
        (List.append_ne_nil_of_right_ne_nil s.gp0Buf (List.cons_ne_nil w []))
      rw [List.append_cons, queued] at joined
      obtain ⟨rfl, rfl⟩ := List.cons.inj joined
      have push : exec (.gp0Wr w) s = .next { s with gp0Buf := v0 :: rest, result := .done } :=
        pushGp0_queues queued len (by simp)
      rw [writeGp0, push, thenIfOk_next]
      refine (if_neg Bool.false_ne_true).trans ?_
      rw [ih (List.cons_ne_nil v ws) rfl]
      exact exec_with_result (commandOf_isGp0 command) .done { s with gp0Buf := [] }

theorem encode_refusedCommand {v w0 : Word} {args : List Word} (h : encode (refusedCommand v) = .gp0 w0 args) :
    args = [] := by
  unfold refusedCommand at h
  split at h <;> cases h <;> rfl

/-- Settles O41: an accepted packet by `writeGp0_of_joined`; a refused command is the one word that is refused. -/
theorem writingAPacketWordByWordIsItsCommand : Obligations.WritingAPacketWordByWordIsItsCommand := by
  intro i w0 args s wf packet empty
  have command := decode_encode_gp0 ⟨w0, args, packet⟩ wf
  rw [packet, decode_gp0_eq_ok_iff] at command
  cases len : packetLen w0 with
  | ok n =>
    obtain rfl := (commandOf_isSome_iff len args).1 ⟨i, command⟩
    rw [writeGp0_of_joined len command (List.cons_ne_nil w0 args) (by rw [empty, List.nil_append]),
      State.with_gp0Buf_of_empty empty]
  | error e =>
    obtain rfl : refusedCommand w0 = i := Option.some.inj ((commandOf_of_packetLen_error len args).symm.trans command)
    obtain rfl := encode_refusedCommand packet
    rw [writeGp0_singleton]
    exact pushGp0_refuses empty len

end Sys2Proof.Machine
end

section
/-! PROOFS. What every step keeps (10_state.md R35, 43_gp0_ingress.md R216): both memories canonical, the queued words
framed, no list cursor left; by what an instruction can do, and by what the other accesses of the bus answer. -/

namespace Sys2Proof.Machine

/-! ## Transfers -/

theorem BlockInv.listAddr {s : State} (inv : BlockInv s) : s.listAddr = 0 := inv.2.2.2

/-- Words that move keep the invariant where they leave no cursor. -/
theorem BlockInv.of_moved {s u : State} (inv : BlockInv s) (moved : Moved s u) (cursor : u.listAddr = 0) :
    BlockInv u := by
  obtain ⟨ram, vram, buf, -⟩ := inv
  obtain ⟨-, -, -, -, -, keepsRam, keepsVram, keepsBuf⟩ := moved
  exact ⟨keepsRam ram, keepsVram vram, keepsBuf buf, cursor⟩

/-- The end of a transfer touches neither memory and no queued word (R186, R192, R205). -/
theorem EndsLike.moved_memories {t u : State} (ends : EndsLike t u) :
    t.ram = u.ram ∧ t.vram = u.vram ∧ t.gp0Buf = u.gp0Buf := by
  rcases ends with rfl | ⟨ch, rfl⟩ | rfl
  · exact ⟨rfl, rfl, rfl⟩
  · exact ⟨transferFinished_ram ch u, transferFinished_vram ch u, transferFinished_gp0Buf ch u⟩
  · exact ⟨rfl, rfl, rfl⟩

/-- A transfer keeps the invariant: its words move, its end touches no memory, and its walk leaves no cursor. -/
theorem TransferSpec.blockInv {o : Out} {s t : State} (transfer : TransferSpec o s) (inv : BlockInv s)
    (answer : o = .next t) : BlockInv t := by
  obtain ⟨e, u, a, answer', moved, ends, cursor⟩ := transfer
  cases answer'.symm.trans answer
  obtain ⟨ram, vram, buf⟩ := ends.moved_memories
  have noCursor : a = 0 := cursor.elim (·.trans inv.listAddr) id
  obtain ⟨keepsRam, keepsVram, keepsBuf, -⟩ := inv.of_moved (u := u.setListAddr 0) moved rfl
  refine ⟨?_, ?_, ?_, noCursor⟩
  · rwa [State.setListAddr_ram, ram]
  · rwa [State.setListAddr_vram, vram]
  · rwa [State.setListAddr_gp0Buf, buf]

/-! ## Instructions -/

/-- The store of a channel's register touches nothing that the invariant speaks of. -/
theorem StoresTo.blockInv {ch : Chan} {v : Word} {s f : State} {i : Instr} (stores : StoresTo ch v s i f)
    (inv : BlockInv s) : BlockInv f := by
  obtain ⟨-, rfl⟩ | ⟨-, rfl⟩ | ⟨-, rfl⟩ := stores <;> exact inv

/-- Every instruction keeps the invariant but the rows of the list walk, which move its cursor. -/
theorem exec_blockInv {i : Instr} {s t : State} (noHeader : ∀ h, encode i ≠ .llhdr h) (inv : BlockInv s)
    (answer : exec i s = .next t) : BlockInv t := by
  rcases exec_cases i s with ⟨u, answer', gpu, vram, buf⟩ | ⟨ch, v, f, stores, run⟩ | transfer | ⟨v, rfl⟩ | ⟨v, rfl⟩ |
    ⟨size, next, rfl⟩ | ⟨size, next, rfl⟩
  · cases answer'.symm.trans answer
    exact inv.of_moved (gpu.moved vram buf) (gpu.listAddr.trans inv.listAddr)
  · exact (trigger_spec ch f).blockInv (stores.blockInv inv) (run.symm.trans answer)
  · exact transfer.blockInv inv answer
  · cases answer
    exact inv
  · cases answer
    exact inv
  · exact absurd rfl (noHeader _)
  · exact absurd rfl (noHeader _)

/-! ## The instructions that come from outside (30_encoding.md R120) -/

theorem dmaAccess_not_header (seg : Segment) (op : BusOp) (m v h : Word) : encode (dmaAccess seg op m v) ≠ .llhdr h := by
  unfold dmaAccess
  split <;> nofun

theorem decodeReg_not_header {a : Access} {i : Instr} (decoded : decodeReg a = .ok i) (h : Word) :
    encode i ≠ .llhdr h := by
  obtain rfl | rfl := decodeReg_ok decoded
  · exact dmaAccess_not_header _ _ _ _ h
  · nofun

theorem isGp0_not_header {i : Instr} (gp0 : isGp0 i = true) (h : Word) : encode i ≠ .llhdr h := by
  intro header
  rw [isGp0, header] at gp0
  cases gp0

/-! ## The other accesses of the bus -/

/-- An aligned store to RAM keeps the canonical form, whatever its width (20_memory.md R62). -/
theorem Memory.wf_ramStore {m : List Host.Cell} {w : Width} {a : Nat} (v : Word) (inside : a < 0x200000)
    (naturally : a % Width.bytes w = 0) (wf : Memory.wf m = true) : Memory.wf (ramStore m w a v) = true := by
  cases w with
  | byte => exact Memory.wf_write8 _ inside wf
  | half => exact Memory.wf_write16 _ (by dsimp only [Width.bytes, Config.ramSize] at *; omega) wf
  | word => exact Memory.wf_write32 _ (by dsimp only [Width.bytes, Config.ramSize] at *; omega) wf

/-- An access that is no instruction changes RAM and the outcome only, and keeps RAM canonical: what it stores is aligned,
and inside RAM by the row of the map (R76, R78). -/
theorem busOther_next {a : Access} {s t : State} (answer : busOther a s = .next t) :
    ∃ ram r, t = { s with ram := ram, result := r } ∧ (Memory.wf s.ram = true → Memory.wf ram = true) := by
  have row := busTarget_row (maskAddr a.addr)
  unfold busOther at answer
  dsimp only at answer
  generalize busTarget (maskAddr a.addr) = target at row answer
  cases target with
  | unmapped | ioOther =>
    cases answer
    exact ⟨_, _, rfl, id⟩
  | ram =>
    dsimp only at answer
    split at answer
    · cases answer
      exact ⟨_, _, rfl, id⟩
    · rename_i natural
      rw [Bool.not_eq_true, Bool.not_eq_false', aligned, beq_iff_eq] at natural
      split at answer <;> cases answer
      · exact ⟨_, _, rfl, id⟩
      · exact ⟨_, _, rfl, Memory.wf_ramStore _ row natural⟩
  | expansion1 | cacheControl =>
    dsimp only at answer
    split at answer
    · cases answer
      exact ⟨_, _, rfl, id⟩
    · split at answer <;> cases answer
      exact ⟨_, _, rfl, id⟩
  | bios =>
    dsimp only at answer
    split at answer <;> cases answer
    exact ⟨_, _, rfl, id⟩

theorem busOther_blockInv {a : Access} {s t : State} (inv : BlockInv s) (answer : busOther a s = .next t) :
    BlockInv t := by
  obtain ⟨ram, r, rfl, keepsRam⟩ := busOther_next answer
  obtain ⟨wf, rest⟩ := inv
  exact ⟨keepsRam wf, rest⟩

theorem rejectedAccess_blockInv {r : Reject} {a : Access} {s t : State} (inv : BlockInv s)
    (answer : rejectedAccess r a s = .next t) : BlockInv t := by
  cases r with
  | busError k =>
    cases answer
    exact inv
  | notRegister | notEnabled | length => exact busOther_blockInv inv answer

/-! ## Events -/

theorem runEvent_blockInv {e : HostEvent} {s t : State} (inv : BlockInv s) (answer : runEvent e s = .next t) :
    BlockInv t := by
  cases e with
  | bus a =>
    unfold runEvent at answer
    dsimp only at answer
    split at answer
    · exact exec_blockInv (decodeReg_not_header ‹_›) inv answer
    · exact rejectedAccess_blockInv inv answer
  | execute w0 args =>
    unfold runEvent at answer
    dsimp only at answer
    split at answer
    · exact exec_blockInv (isGp0_not_header (commandOf_isGp0 (decode_gp0_eq_ok_iff.1 ‹_›))) inv answer
    · cases answer
      exact inv
  | setEnv | readPixel =>
    cases answer
    exact inv

/-- Settles O9: a step without an event changes nothing, a step with one keeps the invariant by `runEvent_blockInv`. -/
theorem everyStepKeepsTheInvariant : Obligations.EveryStepKeepsTheInvariant := by
  intro s t inv answer
  unfold step at answer
  split at answer
  · cases answer
    exact inv
  · rename_i e rest _
    exact runEvent_blockInv (s := { s with pending := rest }) inv answer

end Sys2Proof.Machine
end

section
/-! PROOFS. What a triangle leaves in each pixel (45_triangle_raster.md R282 to R288, 46_pixel_pipeline.md R301 to R314):
its shade, or its texel where it does not read what it writes; a pixel it does not cover is as it was. -/

namespace Sys2Proof.Machine

/-! ## Shaded triangles (R301) -/

/-- A triangle's pixel is settled by the paint of the triangle that setup answers (R282). -/
theorem trianglePixel_congr {area : DrawArea} {v0 v1 v2 : Vert} {paint paint' : Tri → Half → Half}
    (same : ∀ t, setup v0 v1 v2 = some t → paint t = paint' t) (x y : Nat) (back : Half) :
    trianglePixel area v0 v1 v2 paint x y back = trianglePixel area v0 v1 v2 paint' x y back := by
  unfold trianglePixel
  cases answer : setup v0 v1 v2 with
  | none => rfl
  | some t => simp only [same t answer]

/-- A shaded triangle draws a pixel by its shade. -/
theorem Tri.drawPixel_shaded {ctx : Ctx} (shaded : ctx.rt = .shaded) (t : Tri) (x y : Nat) :
    t.drawPixel ctx x y = putPixel ctx x y (t.shade x y) := by
  unfold Tri.drawPixel
  rw [shaded]

theorem vramRead_drawTriangle_shaded {ctx : Ctx} (shaded : ctx.rt = .shaded) (area : DrawArea) (v0 v1 v2 : Vert)
    (m : List (Nat × BitVec 16)) {x y : Nat} (hx : x < 1024) (hy : y < 512) :
    vramRead (drawTriangle ctx area v0 v1 v2 m) x y =
      trianglePixel area v0 v1 v2 (fun t => written ctx (t.shade x y)) x y (vramRead m x y) := by
  refine (drawTriangle_pixel (fun _ => True) ctx area v0 v1 v2 (fun x y t => written ctx (t.shade x y))
    (fun t _ x y inside _ now _ => ?_) m trivial).2 x y hx hy
  obtain ⟨left, top⟩ := inArea_lt inside
  rw [t.drawPixel_shaded shaded]
  exact ⟨trivial, putPixel_same .., fun x' y' hx' hy' => putPixel_ownPixelOnly ctx _ left top now x' y' hx' hy'⟩

/-- A triangle of one colour is shaded with that colour (R301, R302). -/
theorem Tri.shade_flat {v0 v1 v2 : Vert} {t : Tri} (answer : setup v0 v1 v2 = some t) {c : Color} (c0 : v0.c = c)
    (c1 : v1.c = c) (c2 : v2.c = c) (x y : Int) : t.shade x y = quantisedPixel c.r.toNat c.g.toNat c.b.toNat := by
  obtain ⟨positive, area, first, others⟩ := setup_spec answer
  have colours : t.v0.c = c ∧ t.v1.c = c ∧ t.v2.c = c := by
    rcases others with ⟨second, third⟩ | ⟨second, third⟩ <;> simp only [first, second, third, c0, c1, c2, and_self]
  unfold Tri.shade
  simp only [colours, Tri.interpolate_flat positive area]

/-! ## Textured triangles (R303 to R314) -/

theorem covers_of_setup {v0 v1 v2 : Vert} {t : Tri} (answer : setup v0 v1 v2 = some t) (x y : Int) :
    covers v0 v1 v2 x y = t.inside x y := by
  unfold covers
  rw [answer]

theorem trianglePixel_of_setup {v0 v1 v2 : Vert} {t : Tri} (answer : setup v0 v1 v2 = some t) (area : DrawArea)
    (paint : Tri → Half → Half) (x y : Nat) (back : Half) : trianglePixel area v0 v1 v2 paint x y back =
      if inArea area x y && covers v0 v1 v2 x y then paint t back else back := by
  unfold trianglePixel covers
  rw [answer]

theorem trianglePixel_of_no_setup {v0 v1 v2 : Vert} (degenerate : setup v0 v1 v2 = none) (area : DrawArea)
    (paint : Tri → Half → Half) (x y : Nat) (back : Half) : trianglePixel area v0 v1 v2 paint x y back = back := by
  unfold trianglePixel
  rw [degenerate]

/-- A pixel that a triangle does not cover, or outside the drawing area, is as it was, whatever its texels (R285). -/
theorem vramRead_drawTriangle_uncovered (ctx : Ctx) {area : DrawArea} {v0 v1 v2 : Vert} (m : List (Nat × BitVec 16))
    {x y : Nat} (hx : x < 1024) (hy : y < 512) (uncovered : (inArea area x y && covers v0 v1 v2 x y) = false) :
    vramRead (drawTriangle ctx area v0 v1 v2 m) x y = vramRead m x y := by
  unfold drawTriangle
  cases answer : setup v0 v1 v2 with
  | none => rfl
  | some t =>
    refine scanBox_keeps (fun now => vramRead now x y = vramRead m x y) (by unfold Tri.x0; omega)
      (by unfold Tri.y0; omega) (fun x' y' left right top bottom now same => ?_) m rfl
    have inside : inArea area x' y' = true := by
      rw [inArea_iff]
      unfold Tri.x0 at left; unfold Tri.x1 at right; unfold Tri.y0 at top; unfold Tri.y1 at bottom
      omega
    obtain ⟨hx', hy'⟩ := inArea_lt inside
    split
    · rename_i covered
      refine (t.drawPixel_ownPixelOnly ctx hx' hy' now x y hx hy ?_).trans same
      rintro ⟨rfl, rfl⟩
      rw [inside, covers_of_setup answer, covered] at uncovered
      cases uncovered
    · exact same

/-- A covered pixel gets the texel sampled from the framebuffer that stands when it is drawn (R303, R310 to R314). -/
theorem Tri.vramRead_drawPixel_textured {ctx : Ctx} (texels : ctx.rt ≠ .shaded) (t : Tri) (x y : Nat)
    (m : List (Nat × BitVec 16)) :
    vramRead (t.drawPixel ctx x y m) x y = texelPaint m ctx x y t (vramRead m x y) := by
  rw [t.drawPixel_textured texels]
  exact texturedPixel_same ..

/-- The texel of a covered pixel is the same in two framebuffers that agree outside an area from which it reads nothing. -/
theorem texelPaint_agree {area : DrawArea} {ctx : Ctx} {m0 m : List (Nat × BitVec 16)} (reads : ReadsOutside area ctx)
    (texels : ctx.rt ≠ .shaded) (agree : AgreeOutside area m0 m) {v0 v1 v2 : Vert} {t : Tri}
    (answer : setup v0 v1 v2 = some t) {x y : Nat} (covered : t.inside x y = true) (back : Half) :
    texelPaint m ctx x y t back = texelPaint m0 ctx x y t back := by
  obtain ⟨positive, twice, -⟩ := setup_spec answer
  have byte (c0 c1 c2 : Byte) : t.interpolate x y c0 c1 c2 < 256 :=
    Nat.lt_succ_of_le (Tri.interpolate_le positive twice covered c0 c1 c2)
  unfold texelPaint textured
  rw [sample_agree reads agree (byte ..) (byte ..) texels]

theorem vramRead_drawTriangle_of_readsOutside {ctx : Ctx} (texels : ctx.rt ≠ .shaded) {area : DrawArea}
    (reads : ReadsOutside area ctx) (v0 v1 v2 : Vert) (m : List (Nat × BitVec 16)) {x y : Nat} (hx : x < 1024)
    (hy : y < 512) : vramRead (drawTriangle ctx area v0 v1 v2 m) x y =
      trianglePixel area v0 v1 v2 (texelPaint m ctx x y) x y (vramRead m x y) := by
  refine (drawTriangle_pixel (AgreeOutside area m) ctx area v0 v1 v2 (texelPaint m ctx)
    (fun t answer x y inside covered now agree => ?_) m (StaysIn.refl area m)).2 x y hx hy
  obtain ⟨left, top⟩ := inArea_lt inside
  have own := t.drawPixel_ownPixelOnly ctx left top
  refine ⟨fun x' y' hx' hy' outside => ?_, ?_, fun x' y' hx' hy' => own now x' y' hx' hy'⟩
  · exact (own.staysIn inside now x' y' hx' hy' outside).trans (agree x' y' hx' hy' outside)
  · rw [t.vramRead_drawPixel_textured texels, texelPaint_agree reads texels agree answer covered]

/-- A range that has room for `n` alone holds it or nothing. -/
theorem rangeCount_single {lo hi : Int} {n : Nat} (low : (n : Int) ≤ lo) (high : hi ≤ n) :
    (lo ≤ n ∧ (n : Int) ≤ hi ∧ rangeCount lo hi = 1 ∧ lo.toNat = n) ∨
      (¬ (lo ≤ n ∧ (n : Int) ≤ hi) ∧ rangeCount lo hi = 0) := by
  unfold rangeCount
  omega

/-- A scan of a box that has room for one pixel visits it or nothing (R287). -/
theorem scanBox_single {x0 x1 y0 y1 : Int} {x y : Nat} (left : (x : Int) ≤ x0) (right : x1 ≤ x) (top : (y : Int) ≤ y0)
    (bottom : y1 ≤ y) (f : Nat → Nat → List (Nat × BitVec 16) → List (Nat × BitVec 16)) (m : List (Nat × BitVec 16)) :
    scanBox x0 x1 y0 y1 f m = if x0 ≤ x ∧ (x : Int) ≤ x1 ∧ y0 ≤ y ∧ (y : Int) ≤ y1 then f x y m else m := by
  unfold scanBox
  rcases rangeCount_single top bottom with ⟨y0y, yy1, one, y0'⟩ | ⟨outside, zero⟩
  · rcases rangeCount_single left right with ⟨x0x, xx1, one', x0'⟩ | ⟨outside, zero⟩
    · rw [if_pos ⟨x0x, xx1, y0y, yy1⟩, one, one', x0', y0']
      rfl
    · rw [if_neg fun ⟨x0x, xx1, _⟩ => outside ⟨x0x, xx1⟩, one, zero]
      rfl
  · rw [if_neg fun ⟨_, _, y0y, yy1⟩ => outside ⟨y0y, yy1⟩, zero]
    rfl

/-- In an area of one pixel a triangle draws that pixel alone, if it covers it (R283, R285). -/
theorem drawTriangle_onePixel {area : DrawArea} (one : OnePixel area) (ctx : Ctx) {v0 v1 v2 : Vert} {t : Tri}
    (answer : setup v0 v1 v2 = some t) (m : List (Nat × BitVec 16)) : drawTriangle ctx area v0 v1 v2 m =
      if t.inside area.minX.toNat area.minY.toNat then t.drawPixel ctx area.minX.toNat area.minY.toNat m else m := by
  have column := congrArg BitVec.toNat one.1
  have row := congrArg BitVec.toNat one.2
  obtain ⟨positive, twice, -⟩ := setup_spec answer
  unfold drawTriangle
  rw [answer]
  dsimp only
  rw [scanBox_single (x := area.minX.toNat) (y := area.minY.toNat) (by unfold Tri.x0; omega)
    (by unfold Tri.x1; omega) (by unfold Tri.y0; omega) (by unfold Tri.y1; omega)]
  by_cases covered : t.inside area.minX.toNat area.minY.toNat = true
  · have box := Tri.inside_box positive twice covered
    refine if_pos ?_
    unfold Tri.x0 Tri.x1 Tri.y0 Tri.y1
    omega
  · simp only [if_neg covered, ite_self]

theorem vramRead_drawTriangle_of_onePixel {ctx : Ctx} (texels : ctx.rt ≠ .shaded) {area : DrawArea}
    (one : OnePixel area) (v0 v1 v2 : Vert) (m : List (Nat × BitVec 16)) {x y : Nat} (hx : x < 1024) (hy : y < 512) :
    vramRead (drawTriangle ctx area v0 v1 v2 m) x y =
      trianglePixel area v0 v1 v2 (texelPaint m ctx x y) x y (vramRead m x y) := by
  cases answer : setup v0 v1 v2 with
  | none =>
    rw [trianglePixel_of_no_setup answer, drawTriangle, answer]
  | some t =>
    rw [trianglePixel_of_setup answer]
    split
    · rename_i covered
      rw [Bool.and_eq_true, inArea_iff, covers_of_setup answer] at covered
      obtain ⟨⟨left, right, top, bottom⟩, covered⟩ := covered
      obtain rfl : x = area.minX.toNat := left.antisymm' (one.1 ▸ right)
      obtain rfl : y = area.minY.toNat := top.antisymm' (one.2 ▸ bottom)
      rw [drawTriangle_onePixel one ctx answer, if_pos covered, t.vramRead_drawPixel_textured texels]
    · rename_i uncovered
      exact vramRead_drawTriangle_uncovered ctx m hx hy (Bool.eq_false_iff.2 uncovered)

end Sys2Proof.Machine
end

section
/-! PROOFS. The polygon commands (44_polygon.md): each row of a packet shape is that shape's form with its own flags, so one
law per shape settles the four rows; a quad is its two triangles, and the reserved depth is refused before drawing. -/

namespace Sys2Proof

/-- The packet without the colour words that are not used for drawing (R242). -/
def TriGouraudTex.flat (p : TriGouraudTex) : TriFlatTex :=
  ⟨p.c, p.v0, p.t0, p.pal, p.v1, p.t1, p.page, p.v2, p.t2⟩

/-- The packet without the colour words that are not used for drawing (R242). -/
def QuadGouraudTex.flat (p : QuadGouraudTex) : QuadFlatTex :=
  ⟨p.c, p.v0, p.t0, p.pal, p.v1, p.t1, p.page, p.v2, p.t2, p.v3, p.t3⟩

end Sys2Proof

namespace Sys2Proof.Machine

/-- A packet shape has four rows, one for each pair of the flags `raw` and `semi` (30_encoding.md R118); the rows of other
shapes may follow them. -/
theorem of_mem_four_cons {α : Type} {P : α → Prop} {a b c d row : α} {rest : List α}
    (mem : row ∈ a :: b :: c :: d :: rest) (ha : P a) (hb : P b) (hc : P c) (hd : P d) (others : row ∈ rest → P row) :
    P row := by
  simp only [List.mem_cons] at mem
  rcases mem with rfl | rfl | rfl | rfl | mem
  · exact ha
  · exact hb
  · exact hc
  · exact hd
  · exact others mem

theorem of_mem_four {α : Type} {P : α → Prop} {a b c d row : α} (mem : row ∈ [a, b, c, d]) (ha : P a) (hb : P b)
    (hc : P c) (hd : P d) : P row :=
  of_mem_four_cons mem ha hb hc hd fun nothing => absurd nothing List.not_mem_nil

/-! ## Untextured triangles (R244 to R247, R260 to R263) -/

/-- An untextured triangle leaves in each pixel what its shade leaves there (R240, R301). -/
theorem draws_shadedTriangle {i : Instr} {s : State} {raw semi : Bool} {c : Color} {v0 v1 v2 : Vert}
    (run : exec i s = polygonShaded raw semi c v0 v1 v2 none s) : Draws i s fun x y =>
      trianglePixel s.drawArea v0 v1 v2 (fun t => written (shadedCtx raw semi c s.semiOp) (t.shade x y)) x y :=
  ⟨_, run, rfl, rfl, fun _ _ hx hy => vramRead_drawTriangle_shaded rfl s.drawArea v0 v1 v2 s.vram hx hy⟩

/-- Settles O46: each row is `triGouraud`. -/
theorem gouraudTrianglesPaintTheirPixels : Obligations.GouraudTrianglesPaintTheirPixels := by
  intro p s i raw semi row
  have run : exec i s = triGouraud raw semi p s :=
    of_mem_four (P := fun r => exec r.1 s = triGouraud r.2.1 r.2.2 p s) row rfl rfl rfl rfl
  exact draws_shadedTriangle run

/-- Settles O45: each row is `triFlat`, whose shade is its one colour. -/
theorem flatTrianglesPaintTheirPixels : Obligations.FlatTrianglesPaintTheirPixels := by
  intro p s i raw semi row
  have run : exec i s = triFlat raw semi p s :=
    of_mem_four (P := fun r => exec r.1 s = triFlat r.2.1 r.2.2 p s) row rfl rfl rfl rfl
  obtain ⟨t, ends, done, frame, pixels⟩ := draws_shadedTriangle run
  refine ⟨t, ends, done, frame, fun x y hx hy => (pixels x y hx hy).trans (trianglePixel_congr ?_ x y _)⟩
  intro t answer
  rw [Tri.shade_flat (c := p.c) answer rfl rfl rfl]

/-! ## Textured triangles (R248 to R251, R264 to R267) -/

theorem DepthGives.texturedType_eq {depth : BitVec 2} {rt : RenderType} (h : DepthGives depth rt) :
    texturedType depth = some rt := by
  rcases h with ⟨rfl, rfl⟩ | ⟨rfl, rfl⟩ | ⟨rfl, rfl⟩ <;> rfl

theorem texturedType_ne_shaded {depth : BitVec 2} {rt : RenderType} (h : texturedType depth = some rt) :
    rt ≠ .shaded := by
  rintro rfl
  unfold texturedType at h
  split at h <;> cases h

theorem exists_depthGives {depth : BitVec 2} (h : depth ≠ 3#2) : ∃ rt, DepthGives depth rt := by
  have : depth = 0#2 ∨ depth = 1#2 ∨ depth = 2#2 := by bv_omega
  rcases this with rfl | rfl | rfl
  · exact ⟨_, .inl ⟨rfl, rfl⟩⟩
  · exact ⟨_, .inr (.inl ⟨rfl, rfl⟩)⟩
  · exact ⟨_, .inr (.inr ⟨rfl, rfl⟩)⟩

/-- A textured polygon of a depth that is not reserved draws by its render type (R240). -/
theorem polygonTextured_of_depthGives {tex : TexInfo} {rt : RenderType} (h : DepthGives tex.page.depth rt)
    (op : BitVec 8) (raw semi : Bool) (c : Color) (v0 v1 v2 : Vert) (v3 : Option Vert) (s : State) :
    polygonTextured op raw semi c tex v0 v1 v2 v3 s =
      .next (drawWith s (drawPolygon ⟨rt, raw, semi, tex.pal, tex.page, c, s.semiOp⟩ s.drawArea v0 v1 v2 v3)) := by
  rw [polygonTextured, h.texturedType_eq]

/-- A textured triangle changes covered pixels only, and paints their texels where it does not read what it writes. -/
theorem drawsTextured_triangle {i : Instr} {s : State} {op : BitVec 8} {c : Color} {tex : TexInfo} {v0 v1 v2 : Vert}
    {raw semi : Bool} {rt : RenderType} {ctx : Ctx} (depth : DepthGives tex.page.depth rt)
    (run : exec i s = polygonTextured op raw semi c tex v0 v1 v2 none s)
    (context : ctx = ⟨rt, raw, semi, tex.pal, tex.page, c, s.semiOp⟩) :
    DrawsTextured i s ctx (fun x y => inArea s.drawArea x y && covers v0 v1 v2 x y)
      (fun x y => trianglePixel s.drawArea v0 v1 v2 (texelPaint s.vram ctx x y) x y) := by
  subst context
  have texels := texturedType_ne_shaded depth.texturedType_eq
  refine ⟨_, run.trans (polygonTextured_of_depthGives depth ..), rfl, rfl,
    fun x y hx hy => vramRead_drawTriangle_uncovered _ s.vram hx hy, ?_⟩
  rintro (reads | one) x y hx hy
  · exact vramRead_drawTriangle_of_readsOutside texels reads v0 v1 v2 s.vram hx hy
  · exact vramRead_drawTriangle_of_onePixel texels one v0 v1 v2 s.vram hx hy

/-- Settles O47: each row is `triFlatTex` with its command byte. -/
theorem flatTexturedTrianglesPaintTheirTexels : Obligations.FlatTexturedTrianglesPaintTheirTexels := by
  rintro p s i raw semi rt ctx _ _ _ row depth context rfl rfl rfl
  obtain ⟨op, run⟩ : ∃ op, exec i s = triFlatTex op raw semi p s :=
    of_mem_four (P := fun r => ∃ op, exec r.1 s = triFlatTex op r.2.1 r.2.2 p s) row ⟨_, rfl⟩ ⟨_, rfl⟩ ⟨_, rfl⟩ ⟨_, rfl⟩
  exact drawsTextured_triangle depth run context

/-- The vertex in another colour. -/
def Vert.recolour (c : Color) (v : Vert) : Vert := { v with c := c }

/-- The triangle with its vertices in one other colour. -/
def Tri.recolour (c : Color) (t : Tri) : Tri := ⟨t.v0.recolour c, t.v1.recolour c, t.v2.recolour c, t.area⟩

/-- Setup looks at positions only (R282). -/
theorem setup_recolour (c : Color) (v0 v1 v2 : Vert) :
    setup (v0.recolour c) (v1.recolour c) (v2.recolour c) = (setup v0 v1 v2).map (Tri.recolour c) := by
  unfold setup Vert.recolour
  dsimp only
  split
  · rfl
  · split <;> rfl

/-- Texels do not depend on the colours of the vertices (R242, R303). -/
theorem drawTriangle_recolour {ctx : Ctx} (texels : ctx.rt ≠ .shaded) (c : Color) (area : DrawArea) (v0 v1 v2 : Vert) :
    drawTriangle ctx area (v0.recolour c) (v1.recolour c) (v2.recolour c) = drawTriangle ctx area v0 v1 v2 := by
  have visit (t : Tri) (x y : Nat) : (t.recolour c).drawPixel ctx x y = t.drawPixel ctx x y := by
    funext m
    rw [Tri.drawPixel_textured texels, Tri.drawPixel_textured texels]
    rfl
  funext m
  unfold drawTriangle
  rw [setup_recolour]
  cases setup v0 v1 v2 with
  | none => rfl
  | some t =>
    simp only [Option.map_some, visit]
    rfl

theorem drawPolygon_recolour {ctx : Ctx} (texels : ctx.rt ≠ .shaded) (c : Color) (area : DrawArea) (v0 v1 v2 : Vert)
    (v3 : Option Vert) : drawPolygon ctx area (v0.recolour c) (v1.recolour c) (v2.recolour c) (v3.map (Vert.recolour c)) =
      drawPolygon ctx area v0 v1 v2 v3 := by
  funext m
  cases v3 with
  | none => exact congrFun (drawTriangle_recolour texels c area v0 v1 v2) m
  | some v3 =>
    simp only [drawPolygon, Option.map_some, drawTriangle_recolour texels]

theorem polygonTextured_recolour (op : BitVec 8) (raw semi : Bool) (c d : Color) (tex : TexInfo) (v0 v1 v2 : Vert)
    (v3 : Option Vert) :
    polygonTextured op raw semi c tex (v0.recolour d) (v1.recolour d) (v2.recolour d) (v3.map (Vert.recolour d)) =
      polygonTextured op raw semi c tex v0 v1 v2 v3 := by
  funext s
  unfold polygonTextured
  cases depth : texturedType tex.page.depth with
  | none => rfl
  | some rt =>
    simp only [drawPolygon_recolour (ctx := ⟨rt, raw, semi, tex.pal, tex.page, c, s.semiOp⟩)
      (texturedType_ne_shaded depth)]

/-- A Gouraud textured triangle is the flat one (R242). -/
theorem triGouraudTex_eq_flat (op : BitVec 8) (raw semi : Bool) (p : TriGouraudTex) (s : State) :
    triGouraudTex op raw semi p s = triFlatTex op raw semi p.flat s :=
  congrFun (polygonTextured_recolour op raw semi p.c p.c ⟨p.pal, p.page⟩ (vert s.drawOffset p.v0 p.c p.t0)
    (vert s.drawOffset p.v1 p.c1 p.t1) (vert s.drawOffset p.v2 p.c2 p.t2) none).symm s

/-- A Gouraud textured quad is the flat one (R242). -/
theorem quadGouraudTex_eq_flat (op : BitVec 8) (raw semi : Bool) (p : QuadGouraudTex) (s : State) :
    quadGouraudTex op raw semi p s = quadFlatTex op raw semi p.flat s :=
  congrFun (polygonTextured_recolour op raw semi p.c p.c ⟨p.pal, p.page⟩ (vert s.drawOffset p.v0 p.c p.t0)
    (vert s.drawOffset p.v1 p.c1 p.t1) (vert s.drawOffset p.v2 p.c2 p.t2) (some (vert s.drawOffset p.v3 p.c3 p.t3))).symm s

/-- Settles O48: each row is `triGouraudTex` with its command byte. -/
theorem gouraudTexturedTrianglesPaintTheirTexels : Obligations.GouraudTexturedTrianglesPaintTheirTexels := by
  rintro p s i raw semi rt ctx _ _ _ row depth context rfl rfl rfl
  obtain ⟨op, run⟩ : ∃ op, exec i s = triGouraudTex op raw semi p s :=
    of_mem_four (P := fun r => ∃ op, exec r.1 s = triGouraudTex op r.2.1 r.2.2 p s) row ⟨_, rfl⟩ ⟨_, rfl⟩ ⟨_, rfl⟩
      ⟨_, rfl⟩
  exact drawsTextured_triangle depth (run.trans (triGouraudTex_eq_flat op raw semi p s)) context

/-! ## Quads (R241) -/

/-- The operation `whole` is `first` and then `second`, and only draws. -/
def DrawnInTurn (whole first second : State → Out) (s : State) : Prop :=
  ∃ t u, first s = .next t ∧ second t = .next u ∧ whole s = .next u ∧ DrawsOnly s u ∧ u.result = .done

/-- The rows of a quad: the quad and its two triangles. -/
def QuadDrawnInTurn (s : State) (row : Instr × Instr × Instr) : Prop :=
  DrawnInTurn (exec row.1) (exec row.2.1) (exec row.2.2) s

theorem DrawnInTurn.of_draws {whole first second : State → Out} {s : State}
    {draw draw' : List (Nat × BitVec 16) → List (Nat × BitVec 16)} (h1 : first s = .next (drawWith s draw))
    (h2 : second (drawWith s draw) = .next (drawWith (drawWith s draw) draw'))
    (h : whole s = .next (drawWith s fun m => draw' (draw m))) : DrawnInTurn whole first second s :=
  ⟨_, _, h1, h2, h, rfl, rfl⟩

theorem quadFlat_drawnInTurn (raw semi : Bool) (p : QuadFlat) (s : State) :
    DrawnInTurn (quadFlat raw semi p) (triFlat raw semi ⟨p.c, p.v0, p.v1, p.v2⟩)
      (triFlat raw semi ⟨p.c, p.v1, p.v2, p.v3⟩) s :=
  .of_draws rfl rfl rfl

/-- An untextured triangle's drawing does not depend on the command colour, which only modulates texels (R311). -/
theorem drawTriangle_shadedCtx (raw semi : Bool) (c c' : Color) (op : BitVec 2) :
    drawTriangle (shadedCtx raw semi c op) = drawTriangle (shadedCtx raw semi c' op) := rfl

theorem quadGouraud_drawnInTurn (raw semi : Bool) (p : QuadGouraud) (s : State) :
    DrawnInTurn (quadGouraud raw semi p) (triGouraud raw semi ⟨p.c, p.v0, p.c1, p.v1, p.c2, p.v2⟩)
      (triGouraud raw semi ⟨p.c1, p.v1, p.c2, p.v2, p.c3, p.v3⟩) s := by
  refine .of_draws rfl rfl ?_
  rw [quadGouraud, polygonShaded]
  unfold drawPolygon
  rw [drawTriangle_shadedCtx raw semi p.c1 p.c]
  rfl

/-- Settles O49: each row of a shape by the shape's law. -/
theorem untexturedQuadsAreTwoTriangles : Obligations.UntexturedQuadsAreTwoTriangles :=
  ⟨fun p s _ _ _ row => of_mem_four (P := QuadDrawnInTurn s) row
      (quadFlat_drawnInTurn false false p s) (quadFlat_drawnInTurn true false p s)
      (quadFlat_drawnInTurn false true p s) (quadFlat_drawnInTurn true true p s),
    fun p s _ _ _ row => of_mem_four (P := QuadDrawnInTurn s) row
      (quadGouraud_drawnInTurn false false p s) (quadGouraud_drawnInTurn true false p s)
      (quadGouraud_drawnInTurn false true p s) (quadGouraud_drawnInTurn true true p s)⟩

/-- The command bytes of the triangles and of the quad differ, but a depth that is not reserved raises none of them. -/
theorem quadFlatTex_drawnInTurn (op op' : BitVec 8) (raw semi : Bool) {p : QuadFlatTex} (depth : p.page.depth ≠ 3#2)
    (s : State) : DrawnInTurn (quadFlatTex op raw semi p)
      (triFlatTex op' raw semi ⟨p.c, p.v0, p.t0, p.pal, p.v1, p.t1, p.page, p.v2, p.t2⟩)
      (triFlatTex op' raw semi ⟨p.c, p.v1, p.t1, p.pal, p.v2, p.t2, p.page, p.v3, p.t3⟩) s := by
  obtain ⟨rt, gives⟩ := exists_depthGives depth
  exact .of_draws (polygonTextured_of_depthGives gives ..) (polygonTextured_of_depthGives gives ..)
    (polygonTextured_of_depthGives gives ..)

theorem quadGouraudTex_drawnInTurn (op op' : BitVec 8) (raw semi : Bool) {p : QuadGouraudTex}
    (depth : p.page.depth ≠ 3#2) (s : State) : DrawnInTurn (quadGouraudTex op raw semi p)
      (triGouraudTex op' raw semi ⟨p.c, p.v0, p.t0, p.pal, p.c1, p.v1, p.t1, p.page, p.c2, p.v2, p.t2⟩)
      (triGouraudTex op' raw semi ⟨p.c, p.v1, p.t1, p.pal, p.c2, p.v2, p.t2, p.page, p.c3, p.v3, p.t3⟩) s := by
  obtain ⟨t, u, first, second, whole, draws⟩ := quadFlatTex_drawnInTurn op op' raw semi (p := p.flat) depth s
  exact ⟨t, u, (triGouraudTex_eq_flat ..).trans first, (triGouraudTex_eq_flat ..).trans second,
    (quadGouraudTex_eq_flat ..).trans whole, draws⟩

/-- Settles O50: each row of a shape by the shape's law. -/
theorem texturedQuadsAreTwoTriangles : Obligations.TexturedQuadsAreTwoTriangles := by
  refine ⟨?_, ?_⟩
  · rintro p s i a b _ _ depth rfl rfl row
    exact of_mem_four (P := QuadDrawnInTurn s) row
      (quadFlatTex_drawnInTurn _ _ false false depth s) (quadFlatTex_drawnInTurn _ _ true false depth s)
      (quadFlatTex_drawnInTurn _ _ false true depth s) (quadFlatTex_drawnInTurn _ _ true true depth s)
  · rintro p s i a b _ _ depth rfl rfl row
    exact of_mem_four (P := QuadDrawnInTurn s) row
      (quadGouraudTex_drawnInTurn _ _ false false depth s) (quadGouraudTex_drawnInTurn _ _ true false depth s)
      (quadGouraudTex_drawnInTurn _ _ false true depth s) (quadGouraudTex_drawnInTurn _ _ true true depth s)

/-! ## The reserved depth (R240, 47_rectangle.md R335) -/

/-- A row of a textured shape, an instruction and its command byte, with the command colour `c`, is refused. -/
def RefusesReserved (c : Color) (s : State) (row : Instr × BitVec 8) : Prop :=
  exec row.1 s = .next { s with result := .error (.reservedDepth (c.toWord row.2)) }

theorem RefusesReserved.of_polygon {i : Instr} {s : State} {op : BitVec 8} {raw semi : Bool} {c : Color} {tex : TexInfo}
    {v0 v1 v2 : Vert} {v3 : Option Vert} (reserved : tex.page.depth = 3#2)
    (run : exec i s = polygonTextured op raw semi c tex v0 v1 v2 v3 s) : RefusesReserved c s (i, op) := by
  unfold RefusesReserved
  rw [run, polygonTextured, reserved]
  rfl

theorem RefusesReserved.of_rect {i : Instr} {s : State} {op : BitVec 8} {raw semi : Bool} {c : Color} {v : Vertex}
    {t : Uv} {pal : Palette} {w h : Nat} (reserved : s.texPage.depth = 3#2)
    (run : exec i s = rectTextured op raw semi c v t pal w h s) : RefusesReserved c s (i, op) := by
  unfold RefusesReserved
  rw [run, rectTextured, reserved]
  rfl

/-- Settles O55: every row is `polygonTextured` or `rectTextured` with its command byte; the fixed sizes are 1, 8 and 16. -/
theorem theReservedDepthIsRefusedBeforeDrawing : Obligations.TheReservedDepthIsRefusedBeforeDrawing := by
  refine ⟨?_, ?_, ?_, ?_, ?_, ?_⟩ <;> intro p s i op reserved row
  iterate 4
    exact of_mem_four (P := RefusesReserved p.c s) row (.of_polygon reserved rfl) (.of_polygon reserved rfl)
      (.of_polygon reserved rfl) (.of_polygon reserved rfl)
  · exact of_mem_four (P := RefusesReserved p.c s) row (.of_rect reserved rfl) (.of_rect reserved rfl)
      (.of_rect reserved rfl) (.of_rect reserved rfl)
  · refine of_mem_four_cons (P := RefusesReserved p.c s) row (.of_rect reserved rfl) (.of_rect reserved rfl)
      (.of_rect reserved rfl) (.of_rect reserved rfl) fun size8 => ?_
    refine of_mem_four_cons size8 (.of_rect reserved rfl) (.of_rect reserved rfl) (.of_rect reserved rfl)
      (.of_rect reserved rfl) fun size16 => ?_
    exact of_mem_four size16 (.of_rect reserved rfl) (.of_rect reserved rfl) (.of_rect reserved rfl)
      (.of_rect reserved rfl)

end Sys2Proof.Machine
end

section
/-! PROOFS. The triangle filler's numbers (45_triangle_raster.md R284, R299; 44_polygon.md R238): placed coordinates are
signed 11-bit values, and so every value computed from them stays inside 32 signed bits. -/

namespace Sys2Proof.Machine

/-! ## Placed coordinates (R238) -/

/-- A placed coordinate is the sum modulo 2048. -/
theorem place_eq_sum (v d : BitVec 11) : ∃ k : Int, place v d = v.toInt + d.toInt + 2048 * k := by
  have wraps : place v d = v.toInt + d.toInt - 2048 * Int.bdiv (v.toInt + d.toInt) 2048 := by
    rw [place, BitVec.toInt_add]
    exact Int.bmod_eq_self_sub_mul_bdiv ..
  exact ⟨-Int.bdiv (v.toInt + d.toInt) 2048, by omega⟩

/-! ## Edge functions of placed points (R299) -/

/-- The vertex lies where a placed vertex can lie. -/
def Vert.Placed (v : Vert) : Prop := -1024 ≤ v.x ∧ v.x ≤ 1023 ∧ -1024 ≤ v.y ∧ v.y ≤ 1023

theorem vert_placed (off : DrawOffset) (p : Vertex) (c : Color) (t : Uv) : (vert off p c t).Placed := by
  obtain ⟨xlow, xhigh⟩ := place_bounds p.x off.dx
  obtain ⟨ylow, yhigh⟩ := place_bounds p.y off.dy
  exact ⟨xlow, xhigh, ylow, yhigh⟩

/-- Setup keeps its three vertices, so it keeps where they lie (R282). -/
theorem setup_placed {v0 v1 v2 : Vert} {t : Tri} (answer : setup v0 v1 v2 = some t) (h0 : v0.Placed) (h1 : v1.Placed)
    (h2 : v2.Placed) : t.v0.Placed ∧ t.v1.Placed ∧ t.v2.Placed := by
  obtain ⟨-, -, first, ⟨second, third⟩ | ⟨second, third⟩⟩ := setup_spec answer <;> rw [first, second, third]
  · exact ⟨h0, h1, h2⟩
  · exact ⟨h0, h2, h1⟩

/-- The product of two differences of placed coordinates. -/
theorem abs_difference_mul_le {a b c d : Int} (ha : -1024 ≤ a ∧ a ≤ 1023) (hb : -1024 ≤ b ∧ b ≤ 1023)
    (hc : -1024 ≤ c ∧ c ≤ 1023) (hd : -1024 ≤ d ∧ d ≤ 1023) : |(b - a) * (d - c)| ≤ 2047 * 2047 := by
  rw [abs_mul]
  exact mul_le_mul (abs_le.2 (by omega)) (abs_le.2 (by omega)) (abs_nonneg _) (by decide)

theorem Vert.Placed.abs_edge_le {p q : Vert} (hp : p.Placed) (hq : q.Placed) {x y : Int} (hx : -1024 ≤ x ∧ x ≤ 1023)
    (hy : -1024 ≤ y ∧ y ≤ 1023) : |edge p.x p.y q.x q.y x y| ≤ 8380418 := by
  obtain ⟨px, px', py, py'⟩ := hp
  obtain ⟨qx, qx', qy, qy'⟩ := hq
  calc |edge p.x p.y q.x q.y x y|
      ≤ |(q.x - p.x) * (y - p.y)| + |(q.y - p.y) * (x - p.x)| := abs_sub _ _
    _ ≤ 2047 * 2047 + 2047 * 2047 := add_le_add
        (abs_difference_mul_le ⟨px, px'⟩ ⟨qx, qx'⟩ ⟨py, py'⟩ hy)
        (abs_difference_mul_le ⟨py, py'⟩ ⟨qy, qy'⟩ ⟨px, px'⟩ hx)
    _ = 8380418 := by norm_num

/-! ## Weighted sums (R301) -/

/-- A sum of bytes by weights that are not negative. -/
theorem weighted_bytes_le {a b c : Int} (ha : 0 ≤ a) (hb : 0 ≤ b) (hc : 0 ≤ c) (b0 b1 b2 : Byte) :
    (b0.toNat : Int) * a + (b1.toNat : Int) * b + (b2.toNat : Int) * c ≤ 255 * (a + b + c) := by
  have byte (v : Byte) {w : Int} (hw : 0 ≤ w) : (v.toNat : Int) * w ≤ 255 * w :=
    mul_le_mul_of_nonneg_right (by have := v.isLt; omega) hw
  linarith [byte b0 ha, byte b1 hb, byte b2 hc]

/-- Settles O59: the vertices that setup answers are placed ones, the area and the weights are edge functions of placed
points, and a covered pixel's weights are not negative and sum to the area. -/
theorem theFillerStaysInside32Bits : Obligations.TheFillerStaysInside32Bits := by
  refine ⟨fun v d => ⟨(place_bounds v d).1, (place_bounds v d).2, place_eq_sum v d⟩, ?_⟩
  intro off p0 p1 p2 c0 c1 c2 t0 t1 t2 t x y answer xlow xhigh ylow yhigh
  obtain ⟨positive, twice, -⟩ := setup_spec answer
  obtain ⟨h0, h1, h2⟩ := setup_placed answer (vert_placed ..) (vert_placed ..) (vert_placed ..)
  have weights : t.w0 x y + t.w1 x y + t.w2 x y = t.area := twice ▸ edge_sum ..
  have small : t.area ≤ 8380418 :=
    twice ▸ (le_abs_self _).trans (h0.abs_edge_le h1 ⟨h2.1, h2.2.1⟩ h2.2.2)
  refine ⟨?_, positive, small, weights, h1.abs_edge_le h2 ⟨xlow, xhigh⟩ ⟨ylow, yhigh⟩,
    h2.abs_edge_le h0 ⟨xlow, xhigh⟩ ⟨ylow, yhigh⟩, h0.abs_edge_le h1 ⟨xlow, xhigh⟩ ⟨ylow, yhigh⟩, fun covered => ?_⟩
  · rintro v (rfl | rfl | rfl)
    · exact h0
    · exact h1
    · exact h2
  · obtain ⟨w0, w1, w2, -⟩ := Tri.inside_weights twice covered
    exact ⟨w0, w1, w2, fun b0 b1 b2 => ⟨weights ▸ weighted_bytes_le w0 w1 w2 b0 b1 b2, by omega,
      Tri.interpolate_le positive twice covered b0 b1 b2⟩⟩

end Sys2Proof.Machine
end

section
/-! PROOFS. The fill rule (45_triangle_raster.md R285, R286, R289): whether a triangle covers a pixel is a matter of its
three directed sides, whatever the order of its vertices, and of the two directions of a side exactly one is top or
left. -/

namespace Sys2Proof.Machine

/-! ## Edge functions (R281) -/

/-- The edge function of two vertices and a point. -/
def Vert.edgeTo (p q : Vert) (x y : Int) : Int := edge p.x p.y q.x q.y x y

/-- Twice the signed area of the triangle of three vertices. -/
def turn (p q a : Vert) : Int := p.edgeTo q a.x a.y

theorem Vert.edgeTo_reverse (p q : Vert) (x y : Int) : q.edgeTo p x y = -p.edgeTo q x y := by
  unfold edgeTo edge; ring

theorem Vert.edgeTo_start (p q : Vert) : p.edgeTo q p.x p.y = 0 := by
  unfold edgeTo edge; ring

theorem Vert.edgeTo_end (p q : Vert) : p.edgeTo q q.x q.y = 0 := by
  unfold edgeTo edge; ring

theorem turn_swap_last (p q a : Vert) : turn p a q = -turn p q a := by
  unfold turn Vert.edgeTo edge; ring

theorem turn_swap_first (p q a : Vert) : turn q p a = -turn p q a := Vert.edgeTo_reverse ..

theorem turn_rotate (p q a : Vert) : turn a p q = turn p q a := by
  unfold turn Vert.edgeTo edge; ring

/-- The corner of two sides is the one point on both. -/
theorem eq_corner {p q a : Vert} (area : turn p q a ≠ 0) {x y : Int} (first : p.edgeTo q x y = 0)
    (second : q.edgeTo a x y = 0) : (x, y) = (q.x, q.y) := by
  have hx : turn p q a * (x - q.x) = q.edgeTo a x y * (p.x - q.x) + p.edgeTo q x y * (a.x - q.x) := by
    unfold turn Vert.edgeTo edge; ring
  have hy : turn p q a * (y - q.y) = q.edgeTo a x y * (p.y - q.y) + p.edgeTo q x y * (a.y - q.y) := by
    unfold turn Vert.edgeTo edge; ring
  rw [first, second, zero_mul, zero_mul, add_zero, mul_eq_zero, or_iff_right area] at hx hy
  rw [sub_eq_zero.1 hx, sub_eq_zero.1 hy]

/-! ## The sides of a triangle -/

/-- The three directed sides of a triangle have the property. -/
def Sides (S : Vert → Vert → Prop) (a b c : Vert) : Prop := S a b ∧ S b c ∧ S c a

theorem Sides.rotate {S : Vert → Vert → Prop} {a b c : Vert} : Sides S b c a ↔ Sides S a b c :=
  ⟨fun ⟨hbc, hca, hab⟩ => ⟨hab, hbc, hca⟩, fun ⟨hab, hbc, hca⟩ => ⟨hbc, hca, hab⟩⟩

/-- The vertices make a triangle, and its sides, directed as setup directs them (R282), have the property. -/
def OnSides (S : Vert → Vert → Prop) (v0 v1 v2 : Vert) : Prop :=
  (0 < turn v0 v1 v2 ∧ Sides S v0 v1 v2) ∨ (turn v0 v1 v2 < 0 ∧ Sides S v0 v2 v1)

theorem onSides_iff_setup (S : Vert → Vert → Prop) (v0 v1 v2 : Vert) :
    OnSides S v0 v1 v2 ↔ ∃ t, setup v0 v1 v2 = some t ∧ Sides S t.v0 t.v1 t.v2 := by
  unfold setup OnSides turn Vert.edgeTo
  dsimp only
  split
  · simp [*]
  · split
    · simp [*, not_lt_of_gt]
    · have positive : 0 < edge v0.x v0.y v1.x v1.y v2.x v2.y := by omega
      simp [*]

theorem onSides_swap_last (S : Vert → Vert → Prop) (p q a : Vert) : OnSides S p a q ↔ OnSides S p q a := by
  unfold OnSides
  rw [turn_swap_last, neg_pos, neg_lt_zero, or_comm]

theorem onSides_swap_first (S : Vert → Vert → Prop) (p q a : Vert) : OnSides S q p a ↔ OnSides S p q a := by
  unfold OnSides
  rw [turn_swap_first, neg_pos, neg_lt_zero, or_comm, Sides.rotate (a := p), ← Sides.rotate (a := q)]

/-- The six orders of three vertices. -/
theorem orders_of_perm {v0 v1 v2 p q a : Vert} (order : [v0, v1, v2].Perm [p, q, a]) :
    (v0 = p ∧ v1 = q ∧ v2 = a) ∨ (v0 = q ∧ v1 = p ∧ v2 = a) ∨ (v0 = a ∧ v1 = q ∧ v2 = p) ∨ (v0 = q ∧ v1 = a ∧ v2 = p) ∨
      (v0 = a ∧ v1 = p ∧ v2 = q) ∨ (v0 = p ∧ v1 = a ∧ v2 = q) := by
  simpa [List.permutations, List.permutationsAux, List.permutationsAux.rec] using List.mem_permutations.2 order

/-- The order in which the vertices stand does not matter (R282). -/
theorem onSides_perm (S : Vert → Vert → Prop) {v0 v1 v2 p q a : Vert} (order : [v0, v1, v2].Perm [p, q, a]) :
    OnSides S v0 v1 v2 ↔ OnSides S p q a := by
  rcases orders_of_perm order with ⟨rfl, rfl, rfl⟩ | ⟨rfl, rfl, rfl⟩ | ⟨rfl, rfl, rfl⟩ | ⟨rfl, rfl, rfl⟩ |
    ⟨rfl, rfl, rfl⟩ | ⟨rfl, rfl, rfl⟩
  · rfl
  · exact onSides_swap_first ..
  · rw [onSides_swap_first, onSides_swap_last, onSides_swap_first]
  · rw [onSides_swap_last, onSides_swap_first]
  · rw [onSides_swap_first, onSides_swap_last]
  · exact onSides_swap_last ..

/-! ## Coverage (R285, R286) -/

/-- The directed side takes the point: the point has a positive edge value, or lies on the side's line and the side is a top
or left one (R285). -/
def Takes (x y : Int) (p q : Vert) : Prop :=
  0 < p.edgeTo q x y ∨ (p.edgeTo q x y = 0 ∧ topLeft p.x p.y q.x q.y = true)

/-- The point does not lie on the outer side of the directed side. -/
def Admits (x y : Int) (p q : Vert) : Prop := 0 ≤ p.edgeTo q x y

theorem covers_iff_onSides (v0 v1 v2 : Vert) (x y : Int) :
    covers v0 v1 v2 x y = true ↔ OnSides (Takes x y) v0 v1 v2 := by
  rw [onSides_iff_setup]
  unfold covers
  cases setup v0 v1 v2 with
  | none => simp
  | some t =>
    simp only [Option.some.injEq, exists_eq_left']
    rw [Tri.inside_iff]
    exact Sides.rotate (S := Takes x y)

theorem onSides_of_weights {v0 v1 v2 : Vert} {t : Tri} (answer : setup v0 v1 v2 = some t) {x y : Int}
    (h0 : 0 ≤ t.w0 x y) (h1 : 0 ≤ t.w1 x y) (h2 : 0 ≤ t.w2 x y) : OnSides (Admits x y) v0 v1 v2 :=
  (onSides_iff_setup ..).2 ⟨t, answer, h2, h0, h1⟩

/-- Of the two directions of a side that is not a point, one is top or left and the other is not (R286). -/
theorem topLeft_reverse {ax ay bx by_ : Int} (proper : (ax, ay) ≠ (bx, by_)) :
    topLeft bx by_ ax ay = !topLeft ax ay bx by_ := by
  rw [ne_eq, Prod.mk.injEq] at proper
  rw [Bool.eq_not_iff, ne_eq, Bool.eq_iff_iff]
  simp only [topLeft, Bool.or_eq_true, Bool.and_eq_true, decide_eq_true_eq]
  omega

/-! ## A shared edge (R289) -/

section SharedEdge

variable {p q a b : Vert} {x y : Int}

/-- The sides of a triangle whose edge `p` to `q` has the third vertex on its positive side. -/
theorem OnSides.of_turn_pos {S : Vert → Vert → Prop} (h : OnSides S p q a) (pos : 0 < turn p q a) : Sides S p q a := by
  rcases h with ⟨-, sides⟩ | ⟨neg, -⟩
  · exact sides
  · omega

/-- The sides of a triangle whose edge `p` to `q` has the third vertex on its negative side. -/
theorem OnSides.of_turn_neg {S : Vert → Vert → Prop} (h : OnSides S p q b) (neg : turn p q b < 0) : Sides S q p b :=
  ((onSides_swap_first S p q b).2 h).of_turn_pos (by rw [turn_swap_first]; omega)

theorem ends_ne_of_turn (proper : turn p q a ≠ 0) : (p.x, p.y) ≠ (q.x, q.y) := by
  rintro same
  rw [Prod.mk.injEq] at same
  apply proper
  unfold turn Vert.edgeTo edge
  rw [same.1, same.2]
  ring

/-- No point is taken by both directions of a side. -/
theorem not_takes_both (proper : (p.x, p.y) ≠ (q.x, q.y)) (forth : Takes x y p q) (back : Takes x y q p) : False := by
  unfold Takes at forth back
  rw [Vert.edgeTo_reverse, topLeft_reverse proper] at back
  rcases forth with forth | ⟨forth, top⟩
  · omega
  · rcases back with back | ⟨-, back⟩
    · omega
    · simp [top] at back

/-- An inner point of a top or left edge that the triangle admits is taken by all its sides. -/
theorem Sides.takes_of_admits (proper : turn p q a ≠ 0) (top : topLeft p.x p.y q.x q.y = true)
    (on : p.edgeTo q x y = 0) (notP : (x, y) ≠ (p.x, p.y)) (notQ : (x, y) ≠ (q.x, q.y)) (h : Sides (Admits x y) p q a) :
    Sides (Takes x y) p q a := by
  obtain ⟨-, second, third⟩ := h
  refine ⟨.inr ⟨on, top⟩, .inl (lt_of_le_of_ne second fun zero => ?_), .inl (lt_of_le_of_ne third fun zero => ?_)⟩
  · exact notQ (eq_corner proper on zero.symm)
  · refine notP (eq_corner (p := a) (a := q) ?_ zero.symm on)
    rwa [turn_rotate]

/-- Two triangles on the two sides of an edge take no point both. -/
theorem not_both_take (pos : 0 < turn p q a) (neg : turn p q b < 0) (ha : OnSides (Takes x y) p q a)
    (hb : OnSides (Takes x y) p q b) : False :=
  not_takes_both (ends_ne_of_turn pos.ne') (ha.of_turn_pos pos).1 (hb.of_turn_neg neg).1

/-- Of two triangles on the two sides of an edge that both admit an inner point of it, one takes it. -/
theorem one_takes (pos : 0 < turn p q a) (neg : turn p q b < 0) (on : p.edgeTo q x y = 0)
    (notP : (x, y) ≠ (p.x, p.y)) (notQ : (x, y) ≠ (q.x, q.y)) (ha : OnSides (Admits x y) p q a)
    (hb : OnSides (Admits x y) p q b) : OnSides (Takes x y) p q a ∨ OnSides (Takes x y) p q b := by
  have proper := ends_ne_of_turn pos.ne'
  cases top : topLeft p.x p.y q.x q.y with
  | true => exact .inl (.inl ⟨pos, (ha.of_turn_pos pos).takes_of_admits pos.ne' top on notP notQ⟩)
  | false =>
    have back : 0 < turn q p b := by rw [turn_swap_first]; omega
    refine .inr ((onSides_swap_first ..).1 (.inl ⟨back, (hb.of_turn_neg neg).takes_of_admits back.ne' ?_ ?_ notQ notP⟩))
    · rw [topLeft_reverse proper, top]; rfl
    · rw [Vert.edgeTo_reverse, on, neg_zero]

end SharedEdge

/-- A covered point on the line of a side is on a top or left edge. -/
theorem Takes.topLeft_of_on {p q : Vert} {x y : Int} (h : Takes x y p q) (on : p.edgeTo q x y = 0) :
    topLeft p.x p.y q.x q.y = true := by
  rcases h with inner | ⟨-, top⟩
  · omega
  · exact top

/-- Settles O57: the two triangles of a shared edge direct it in opposite ways, and a vertex lies on both its edges. -/
theorem trianglesThatShareAnEdgeCoverNoPixelTwice : Obligations.TrianglesThatShareAnEdgeCoverNoPixelTwice := by
  refine ⟨?_, ?_⟩
  · intro p q a b v0 v1 v2 u0 u1 u2 x y opposite orderA orderB
    simp only [covers_iff_onSides, onSides_perm _ orderA, onSides_perm _ orderB]
    have sides : (0 < turn p q a ∧ turn p q b < 0) ∨ (turn p q a < 0 ∧ 0 < turn p q b) := mul_neg_iff.1 opposite
    refine ⟨fun ⟨ha, hb⟩ => ?_, fun t t' answer answer' on h0 h1 h2 h0' h1' h2' notP notQ => ?_⟩
    · rcases sides with ⟨pos, neg⟩ | ⟨neg, pos⟩
      · exact not_both_take pos neg ha hb
      · exact not_both_take pos neg hb ha
    · have ha := (onSides_perm _ orderA).1 (onSides_of_weights answer h0 h1 h2)
      have hb := (onSides_perm _ orderB).1 (onSides_of_weights answer' h0' h1' h2')
      rcases sides with ⟨pos, neg⟩ | ⟨neg, pos⟩
      · exact one_takes pos neg on notP notQ ha hb
      · exact (one_takes pos neg on notP notQ hb ha).symm
  · intro v0 v1 v2 t x y answer
    simp only [covers_of_setup answer, t.inside_iff]
    refine ⟨fun h0 h1 h2 => ⟨.inl h0, .inl h1, .inl h2⟩, fun ⟨_, h1, h2⟩ => ?_, fun ⟨h0, _, h2⟩ => ?_,
      fun ⟨h0, h1, _⟩ => ?_⟩
    · exact ⟨Takes.topLeft_of_on h1 (Vert.edgeTo_end ..), Takes.topLeft_of_on h2 (Vert.edgeTo_start ..)⟩
    · exact ⟨Takes.topLeft_of_on h2 (Vert.edgeTo_end ..), Takes.topLeft_of_on h0 (Vert.edgeTo_start ..)⟩
    · exact ⟨Takes.topLeft_of_on h0 (Vert.edgeTo_end ..), Takes.topLeft_of_on h1 (Vert.edgeTo_start ..)⟩

end Sys2Proof.Machine
end

section
/-! PROOFS. The order in which pixels are drawn (45_triangle_raster.md R287, 70_reset_and_hazards.md R436): a scan of a box
cut to the drawing area goes through the area's rows, and through the columns of a row, in ascending order. -/

namespace Sys2Proof.Machine

/-! ## Scans -/

/-- A loop over a range cut to `low..high` is the loop over its part up to `mid` and then over its part beyond. -/
theorem forRange_cut {α : Type} (f : Nat → α → α) (first last : Int) {low mid high : Nat} (above : low ≤ mid)
    (below : mid < high) (a : α) :
    forRange (rangeCount (max first low) (min last high)) (max first low).toNat f a =
      forRange (rangeCount (max first (mid + 1 : Nat)) (min last high)) (max first (mid + 1 : Nat)).toNat f
        (forRange (rangeCount (max first low) (min last mid)) (max first low).toNat f a) := by
  have count : rangeCount (max first low) (min last high) =
      rangeCount (max first low) (min last mid) + rangeCount (max first (mid + 1 : Nat)) (min last high) := by
    unfold rangeCount; omega
  have start : rangeCount (max first (mid + 1 : Nat)) (min last high) = 0 ∨
      (max first (mid + 1 : Nat)).toNat = (max first low).toNat + rangeCount (max first low) (min last mid) := by
    unfold rangeCount; omega
  rw [count, forRange_add]
  rcases start with empty | follows
  · rw [empty]; rfl
  · rw [follows]

/-- Drawing in an area is drawing in its upper rows and then in its lower rows, and in an area of one row drawing in its
left part and then in its right part. -/
def InScanOrder (draw : DrawArea → List (Nat × BitVec 16) → List (Nat × BitVec 16)) : Prop :=
  (∀ (a : DrawArea) (m : BitVec 9), a.minY ≤ m → m < a.maxY → ∀ vram,
    draw a vram = draw { a with minY := m + 1 } (draw { a with maxY := m } vram)) ∧
  (∀ (a : DrawArea) (m : BitVec 10), a.minY = a.maxY → a.minX ≤ m → m < a.maxX → ∀ vram,
    draw a vram = draw { a with minX := m + 1 } (draw { a with maxX := m } vram))

/-- Drawing nothing. -/
theorem inScanOrder_nothing : InScanOrder fun _ vram => vram := ⟨fun _ _ _ _ _ => rfl, fun _ _ _ _ _ _ => rfl⟩

/-- In an area of one row a scan visits the pixels of that row or nothing. -/
theorem scanBox_oneRow {area : DrawArea} (one : area.minY = area.maxY) (top bottom : Int) :
    (∀ x0 x1 f vram, scanBox x0 x1 (max top area.minY.toNat) (min bottom area.maxY.toNat) f vram =
      forRange (rangeCount x0 x1) x0.toNat (fun x => f x area.minY.toNat) vram) ∨
    (∀ x0 x1 f vram, scanBox x0 x1 (max top area.minY.toNat) (min bottom area.maxY.toNat) f vram = vram) := by
  unfold scanBox
  rcases rangeCount_single (n := area.minY.toNat) (lo := max top area.minY.toNat) (hi := min bottom area.maxY.toNat)
    (by omega) (by rw [← one]; omega) with ⟨-, -, count, start⟩ | ⟨-, count⟩
  · left
    intro x0 x1 f vram
    rw [count, start]
    rfl
  · right
    intro x0 x1 f vram
    rw [count]
    rfl

theorem scanBox_inScanOrder (left right top bottom : Int)
    (f : Nat → Nat → List (Nat × BitVec 16) → List (Nat × BitVec 16)) :
    InScanOrder fun area => scanBox (max left area.minX.toNat) (min right area.maxX.toNat) (max top area.minY.toNat)
      (min bottom area.maxY.toNat) f := by
  refine ⟨fun a m above below vram => ?_, fun a m row above below vram => ?_⟩
  · have next : (m + 1).toNat = m.toNat + 1 := by bv_omega
    simp only [next]
    exact forRange_cut _ top bottom above below vram
  · have next : (m + 1).toNat = m.toNat + 1 := by bv_omega
    simp only [next]
    rcases scanBox_oneRow row top bottom with scan | scan <;> simp only [scan]
    exact forRange_cut _ left right above below vram

theorem drawTriangle_inScanOrder (ctx : Ctx) (v0 v1 v2 : Vert) :
    InScanOrder fun area => drawTriangle ctx area v0 v1 v2 := by
  unfold drawTriangle
  cases setup v0 v1 v2 with
  | none => exact inScanOrder_nothing
  | some t => exact scanBox_inScanOrder ..

theorem scanRect_inScanOrder (px py : Int) (w h : Nat)
    (f : Nat → Nat → List (Nat × BitVec 16) → List (Nat × BitVec 16)) :
    InScanOrder fun area => scanRect area px py w h f := scanBox_inScanOrder ..

/-! ## Commands -/

/-- The state with another drawing area, framebuffer and outcome of the access. -/
def State.redraw (s : State) (area : DrawArea) (vram : List (Nat × BitVec 16)) (r : AccessResult) : State :=
  { s with drawArea := area, vram := vram, result := r }

/-- Whatever the drawing area, the framebuffer and the last outcome, the operation draws in scan order, changes nothing
else, and has the same outcome. -/
def RunsInScanOrder (run : State → Out) (s : State) : Prop :=
  ∃ draw r, InScanOrder draw ∧ ∀ area vram before,
    run (s.redraw area vram before) = .next (s.redraw area (draw area vram) r)

theorem RunsInScanOrder.of_eq {run run' : State → Out} {s : State} (h : RunsInScanOrder run s)
    (same : ∀ area vram before, run' (s.redraw area vram before) = run (s.redraw area vram before)) :
    RunsInScanOrder run' s := by
  obtain ⟨draw, r, order, runs⟩ := h
  exact ⟨draw, r, order, fun area vram before => (same area vram before).trans (runs area vram before)⟩

theorem polygonShaded_inScanOrder (raw semi : Bool) (c : Color) (v0 v1 v2 : Vert) (s : State) :
    RunsInScanOrder (polygonShaded raw semi c v0 v1 v2 none) s :=
  ⟨_, .done, drawTriangle_inScanOrder (shadedCtx raw semi c s.semiOp) v0 v1 v2, fun _ _ _ => rfl⟩

theorem polygonTextured_inScanOrder (op : BitVec 8) (raw semi : Bool) (c : Color) (tex : TexInfo) (v0 v1 v2 : Vert)
    (s : State) : RunsInScanOrder (polygonTextured op raw semi c tex v0 v1 v2 none) s := by
  unfold polygonTextured
  cases texturedType tex.page.depth with
  | none => exact ⟨_, _, inScanOrder_nothing, fun _ _ _ => rfl⟩
  | some rt =>
    exact ⟨_, .done, drawTriangle_inScanOrder ⟨rt, raw, semi, tex.pal, tex.page, c, s.semiOp⟩ v0 v1 v2,
      fun _ _ _ => rfl⟩

theorem rectShaded_inScanOrder (raw semi : Bool) (c : Color) (v : Vertex) (w h : Nat) (s : State) :
    RunsInScanOrder (rectShaded raw semi c v w h) s := by
  refine ⟨_, .done, scanRect_inScanOrder (place v.x s.drawOffset.dx) (place v.y s.drawOffset.dy) w h
    (fun x y => putPixel (shadedCtx raw semi c s.semiOp) x y (quantisedPixel c.r.toNat c.g.toNat c.b.toNat)),
    fun _ _ _ => ?_⟩
  simp only [rectShaded, drawWith, State.redraw]

theorem rectTextured_inScanOrder (op : BitVec 8) (raw semi : Bool) (c : Color) (v : Vertex) (t : Uv) (pal : Palette)
    (w h : Nat) (s : State) : RunsInScanOrder (rectTextured op raw semi c v t pal w h) s := by
  unfold rectTextured RunsInScanOrder
  simp only [State.redraw]
  cases texturedType s.texPage.depth with
  | none => exact ⟨_, _, inScanOrder_nothing, fun _ _ _ => rfl⟩
  | some rt =>
    refine ⟨_, .done, scanRect_inScanOrder (place v.x s.drawOffset.dx) (place v.y s.drawOffset.dy) w h
      (fun x y => texturedPixel ⟨rt, raw, semi, pal, s.texPage, c, s.semiOp⟩ x y
        (rectTexel t.u (place v.x s.drawOffset.dx) x) (rectTexel t.v (place v.y s.drawOffset.dy) y)), fun _ _ _ => ?_⟩
    simp only [drawWith]

theorem triFlat_inScanOrder (raw semi : Bool) (p : TriFlat) (s : State) : RunsInScanOrder (triFlat raw semi p) s :=
  (polygonShaded_inScanOrder raw semi p.c (vert s.drawOffset p.v0 p.c noUv) (vert s.drawOffset p.v1 p.c noUv)
    (vert s.drawOffset p.v2 p.c noUv) s).of_eq fun _ _ _ => rfl

theorem triGouraud_inScanOrder (raw semi : Bool) (p : TriGouraud) (s : State) :
    RunsInScanOrder (triGouraud raw semi p) s :=
  (polygonShaded_inScanOrder raw semi p.c (vert s.drawOffset p.v0 p.c noUv) (vert s.drawOffset p.v1 p.c1 noUv)
    (vert s.drawOffset p.v2 p.c2 noUv) s).of_eq fun _ _ _ => rfl

theorem triFlatTex_inScanOrder (op : BitVec 8) (raw semi : Bool) (p : TriFlatTex) (s : State) :
    RunsInScanOrder (triFlatTex op raw semi p) s :=
  (polygonTextured_inScanOrder op raw semi p.c ⟨p.pal, p.page⟩ (vert s.drawOffset p.v0 p.c p.t0)
    (vert s.drawOffset p.v1 p.c p.t1) (vert s.drawOffset p.v2 p.c p.t2) s).of_eq fun _ _ _ => rfl

theorem triGouraudTex_inScanOrder (op : BitVec 8) (raw semi : Bool) (p : TriGouraudTex) (s : State) :
    RunsInScanOrder (triGouraudTex op raw semi p) s :=
  (triFlatTex_inScanOrder op raw semi p.flat s).of_eq fun _ _ _ => triGouraudTex_eq_flat op raw semi p _

/-! ## One surface -/

/-- Which commands draw one surface, by the command byte (30_encoding.md R114). -/
theorem isOneSurface_of_encode {i : Instr} {c : Color} {op : BitVec 8} {args : List Word}
    (h : encode i = .gp0 (c.toWord op) args) :
    isOneSurface i = ((op.extractLsb' 5 3 == 1#3 && !op.getLsbD 3) || op.extractLsb' 5 3 == 3#3) := by
  unfold isOneSurface
  rw [h]
  dsimp only
  have bit : (c.toWord op).getLsbD 27 = op.getLsbD 3 := by
    rw [Color.toWord, BitVec.getLsbD_append, BitVec.getLsbD_append, BitVec.getLsbD_append]
    rfl
  rw [bit, Color.toWord]
  repeat rw [extract_above _ _ _ (by omega)]

theorem isPrimitive_of_isOneSurface {i : Instr} (one : isOneSurface i = true) : isPrimitive i = true := by
  unfold isOneSurface at one
  unfold isPrimitive
  cases h : encode i with
  | gp0 w0 args =>
    rw [h] at one
    simp only [Bool.or_eq_true, Bool.and_eq_true] at one ⊢
    exact one.imp_left And.left
  | reg a | chctl ch ctl | llhdr w => rw [h] at one; cases one

/-- Every triangle and every rectangle is drawn in scan order. Quads and the commands of other groups are told from them by
the command word. -/
theorem exec_inScanOrder {i : Instr} (one : isOneSurface i = true) (s : State) : RunsInScanOrder (exec i) s := by
  have primitive := isPrimitive_of_isOneSurface one
  cases i
  case triF | triFR | triFS | triFSR => exact (triFlat_inScanOrder ..).of_eq fun _ _ _ => rfl
  case triG | triGR | triGS | triGSR => exact (triGouraud_inScanOrder ..).of_eq fun _ _ _ => rfl
  case triFT | triFTR | triFTS | triFTSR => exact (triFlatTex_inScanOrder ..).of_eq fun _ _ _ => rfl
  case triGT | triGTR | triGTS | triGTSR => exact (triGouraudTex_inScanOrder ..).of_eq fun _ _ _ => rfl
  case rectV | rectVR | rectVS | rectVSR | rect1 | rect1R | rect1S | rect1SR | rect8 | rect8R | rect8S | rect8SR |
      rect16 | rect16R | rect16S | rect16SR =>
    exact (rectShaded_inScanOrder ..).of_eq fun _ _ _ => rfl
  case rectVT | rectVTR | rectVTS | rectVTSR | rect1T | rect1TR | rect1TS | rect1TSR | rect8T | rect8TR | rect8TS |
      rect8TSR | rect16T | rect16TR | rect16TS | rect16TSR =>
    exact (rectTextured_inScanOrder ..).of_eq fun _ _ _ => rfl
  case quadF | quadFR | quadFS | quadFSR | quadG | quadGR | quadGS | quadGSR | quadFT | quadFTR | quadFTS | quadFTSR |
      quadGT | quadGTR | quadGTS | quadGTSR =>
    rw [isOneSurface_of_encode rfl] at one
    exact absurd one (by decide)
  case drawmode | areaTl | areaBr | offset | line | gp0Unknown00 | gp0Unknown80 | gp0UnknownA0 | gp0UnknownC0 |
      gp0UnknownE0 =>
    unfold isPrimitive encode at primitive
    dsimp only at primitive
    repeat rw [extract_above _ _ _ (by omega)] at primitive
    exact absurd primitive (by decide)
  all_goals cases one

/-- Settles O56: the command draws in scan order, from whatever the part before it has left. -/
theorem pixelsAreDrawnRowsAscendingThenColumns : Obligations.PixelsAreDrawnRowsAscendingThenColumns := by
  rintro i s _ one rfl
  obtain ⟨draw, r, ⟨rows, columns⟩, run⟩ := exec_inScanOrder one s
  refine ⟨fun m above below => ⟨_, _, run _ s.vram s.result, run _ _ r, ?_⟩,
    fun m row above below => ⟨_, _, run _ s.vram s.result, run _ _ r, ?_⟩⟩
  · exact (run s.drawArea s.vram s.result).trans (by rw [rows _ m above below]; rfl)
  · exact (run s.drawArea s.vram s.result).trans (by rw [columns _ m row above below]; rfl)

end Sys2Proof.Machine
end

section
/-! PROOFS. The arithmetic of one pixel (46_pixel_pipeline.md R302 to R315): what quantisation, modulation and blending do
to each 5-bit lane, and the word of VRAM that a texel is. -/

namespace Sys2Proof.Machine

/-! ## The lanes of a pixel -/

/-- A packed pixel holds in each lane the value packed there, where that value is a lane's (30_encoding.md R116). -/
theorem lanes_pack {r g b : Nat} (m : Bool) (hr : r < 32) (hg : g < 32) (hb : b < 32) :
    red5 (pack r g b m) = r ∧ green5 (pack r g b m) = g ∧ blue5 (pack r g b m) = b ∧ maskBit (pack r g b m) = m :=
  ⟨(red5_pack r g b m).trans (Nat.mod_eq_of_lt hr), (green5_pack r g b m).trans (Nat.mod_eq_of_lt hg),
    (blue5_pack r g b m).trans (Nat.mod_eq_of_lt hb), mask_pack r g b m⟩

/-! ## Quantisation and modulation (46_pixel_pipeline.md R302, R311) -/

theorem quantise_eq_div (c : Nat) : quantise c = c / 8 := Nat.shiftRight_eq_div_pow c 3

theorem quantise_lt (c : Byte) : quantise c.toNat < 32 := by
  have := c.isLt
  rw [quantise_eq_div]
  omega

theorem lanes_quantisedPixel (r g b : Byte) :
    red5 (quantisedPixel r.toNat g.toNat b.toNat) = r.toNat / 8 ∧
      green5 (quantisedPixel r.toNat g.toNat b.toNat) = g.toNat / 8 ∧
      blue5 (quantisedPixel r.toNat g.toNat b.toNat) = b.toNat / 8 ∧
      maskBit (quantisedPixel r.toNat g.toNat b.toNat) = false := by
  simp only [← quantise_eq_div]
  exact lanes_pack false (quantise_lt r) (quantise_lt g) (quantise_lt b)

theorem modulate5_eq (t5 m8 : Nat) : modulate5 t5 m8 = min 31 (t5 * m8 / 128) :=
  congrArg (min 31) (Nat.shiftRight_eq_div_pow _ 7)

theorem modulate5_lt (t5 m8 : Nat) : modulate5 t5 m8 < 32 := Nat.lt_succ_of_le (Nat.min_le_left ..)

theorem lanes_modulate (s : Half) (m : Color) :
    red5 (modulate s m) = min 31 (red5 s * m.r.toNat / 128) ∧
      green5 (modulate s m) = min 31 (green5 s * m.g.toNat / 128) ∧
      blue5 (modulate s m) = min 31 (blue5 s * m.b.toNat / 128) ∧ maskBit (modulate s m) = maskBit s := by
  simp only [← modulate5_eq]
  exact lanes_pack _ (modulate5_lt ..) (modulate5_lt ..) (modulate5_lt ..)

/-! ## Blending (46_pixel_pipeline.md R312, R313) -/

/-- The four operators on one lane. -/
theorem blend5_eq (back front : Nat) :
    blend5 0#2 back front = back / 2 + front / 2 ∧ blend5 1#2 back front = min 31 (back + front) ∧
      blend5 2#2 back front = back - front ∧ blend5 3#2 back front = min 31 (back + front / 4) :=
  ⟨congrArg₂ (· + ·) (Nat.shiftRight_eq_div_pow back 1) (Nat.shiftRight_eq_div_pow front 1), rfl, rfl,
    congrArg (fun f => min 31 (back + f)) (Nat.shiftRight_eq_div_pow front 2)⟩

/-- No operator leaves the lane: the mean and the difference of two lanes are lanes, the two sums are cut at 31. -/
theorem blend5_lt (op : BitVec 2) {back front : Nat} (hb : back < 32) (hf : front < 32) : blend5 op back front < 32 := by
  obtain ⟨mean, sum, difference, quarter⟩ := blend5_eq back front
  obtain rfl | rfl | rfl | rfl : op = 0#2 ∨ op = 1#2 ∨ op = 2#2 ∨ op = 3#2 := by revert op; decide
  all_goals omega

theorem lanes_blend (op : BitVec 2) (back front : Half) :
    red5 (blend op back front) = blend5 op (red5 back) (red5 front) ∧
      green5 (blend op back front) = blend5 op (green5 back) (green5 front) ∧
      blue5 (blend op back front) = blend5 op (blue5 back) (blue5 front) ∧
      maskBit (blend op back front) = maskBit front :=
  have ⟨redBack, greenBack, blueBack⟩ := lanes_lt back
  have ⟨redFront, greenFront, blueFront⟩ := lanes_lt front
  lanes_pack _ (blend5_lt op redBack redFront) (blend5_lt op greenBack greenFront) (blend5_lt op blueBack blueFront)

/-- Each lane of a blended pixel is made of that lane of the back and of the front alone. -/
theorem lane_blend {lane : Half → Nat} (isLane : lane = red5 ∨ lane = green5 ∨ lane = blue5) (op : BitVec 2)
    (back front : Half) : lane (blend op back front) = blend5 op (lane back) (lane front) := by
  obtain ⟨red, green, blue, -⟩ := lanes_blend op back front
  rcases isLane with rfl | rfl | rfl
  · exact red
  · exact green
  · exact blue

theorem blends_iff (ctx : Ctx) (front : Half) :
    blends ctx front = true ↔ ctx.semi = true ∧ (ctx.rt = .shaded ∨ maskBit front = true) := by
  simp only [blends, Bool.and_eq_true, Bool.or_eq_true, beq_iff_eq]

theorem written_eq (ctx : Ctx) (front back : Half) : written ctx front back =
    if ctx.semi = true ∧ (ctx.rt = .shaded ∨ maskBit front = true) then blend ctx.op back front else front := by
  simp only [written, blends_iff]

/-! ## Samples (46_pixel_pipeline.md R304 to R309)

The model names a page and a CLUT by `page * 64` and the like; here they stand as the fields of 30_encoding.md R111, R112
give them. -/

/-- The word of the texture page at a column and a row of it (R306 to R308). -/
def pageWord (vram : List (Nat × BitVec 16)) (page : TexPage) (column v : Nat) : Half :=
  vramRead vram (64 * page.pageX.toNat + column) (256 * page.pageY.toNat + v)

theorem vramRead_base (vram : List (Nat × BitVec 16)) (page : TexPage) (column v : Nat) :
    vramRead vram (baseX page + column) (baseY page + v) = pageWord vram page column v := by
  rw [baseX, baseY, Nat.mul_comm _ 64, Nat.mul_comm _ 256, pageWord]

theorem clut_eq (vram : List (Nat × BitVec 16)) (pal : Palette) (k : Nat) :
    clut vram pal k = vramRead vram (16 * pal.px.toNat + k) pal.py.toNat := by
  rw [clut, palX, palY, Nat.mul_comm]

theorem sample_texP4 (vram : List (Nat × BitVec 16)) {ctx : Ctx} (rt : ctx.rt = .texP4) (u v : Nat) :
    sample vram ctx u v = clut vram ctx.pal ((pageWord vram ctx.page (u / 4) v).extractLsb' (4 * (u % 4)) 4).toNat := by
  rw [sample, rt, BitVec.extractLsb'_toNat, ← vramRead_base]
  rfl

theorem sample_texP8 (vram : List (Nat × BitVec 16)) {ctx : Ctx} (rt : ctx.rt = .texP8) (u v : Nat) :
    sample vram ctx u v = clut vram ctx.pal ((pageWord vram ctx.page (u / 2) v).extractLsb' (8 * (u % 2)) 8).toNat := by
  rw [sample, rt, BitVec.extractLsb'_toNat, ← vramRead_base]
  rfl

theorem sample_texD16 (vram : List (Nat × BitVec 16)) {ctx : Ctx} (rt : ctx.rt = .texD16) (u v : Nat) :
    sample vram ctx u v = pageWord vram ctx.page u v := by
  rw [sample, rt, ← vramRead_base]
  rfl

/-- Settles O60, from the lanes of each operation (`lanes_quantisedPixel`, `lanes_modulate`, `lane_blend`), `written_eq`, and
the sample of each depth. -/
theorem pixelArithmeticActsLaneByLane : Obligations.PixelArithmeticActsLaneByLane := by
  refine ⟨lanes_quantisedPixel, lanes_modulate, ?blending, written_eq, ?samples⟩
  case blending =>
    intro op back front lane isLane
    obtain ⟨mean, sum, difference, quarter⟩ := blend5_eq (lane back) (lane front)
    have blended := lane_blend isLane op back front
    obtain ⟨-, -, -, mask⟩ := lanes_blend op back front
    refine ⟨?_, ?_, ?_, ?_, mask⟩
    · rintro rfl; exact blended.trans mean
    · rintro rfl; exact blended.trans sum
    · rintro rfl; exact blended.trans difference
    · rintro rfl; exact blended.trans quarter
  case samples =>
    rintro vram ctx u v _ _ rfl rfl
    exact ⟨fun rt => (sample_texP4 vram rt u v).trans (clut_eq ..), fun rt => (sample_texP8 vram rt u v).trans (clut_eq ..),
      fun rt => sample_texD16 vram rt u v⟩

end Sys2Proof.Machine
end

section
/-! PROOFS. The rectangle commands (47_rectangle.md): a rectangle's scan visits exactly its pixels inside the drawing area,
each once; each row of a packet shape is that shape's form with its own flags and size. -/

namespace Sys2Proof.Machine

/-! ## The pixels of a rectangle (R332) -/

/-- The pixels of a rectangle inside the drawing area are those of the box that its scan visits. -/
theorem inRect_iff (area : DrawArea) (px py : Int) (w h x y : Nat) : inRect area px py w h x y = true ↔
    max px area.minX.toNat ≤ x ∧ (x : Int) ≤ min (px + w - 1) area.maxX.toNat ∧ max py area.minY.toNat ≤ y ∧
      (y : Int) ≤ min (py + h - 1) area.maxY.toNat := by
  simp only [inRect, Bool.and_eq_true, decide_eq_true_eq, inArea_iff]
  omega

theorem inArea_of_inRect {area : DrawArea} {px py : Int} {w h x y : Nat} (inside : inRect area px py w h x y = true) :
    inArea area x y = true := by
  rw [inRect_iff] at inside
  rw [inArea_iff]
  omega

/-- What a rectangle's scan does to each pixel, when each visit changes its own pixel only and keeps `P`. -/
theorem vramRead_scanRect (P : List (Nat × BitVec 16) → Prop) (after : Nat → Nat → Half → Half) {area : DrawArea}
    (px py : Int) (w h : Nat) {f : Nat → Nat → List (Nat × BitVec 16) → List (Nat × BitVec 16)}
    (own : ∀ x y, x < 1024 → y < 512 → OwnPixelOnly x y (f x y))
    (visit : ∀ x y, inArea area x y = true → ∀ m, P m →
      P (f x y m) ∧ vramRead (f x y m) x y = after x y (vramRead m x y))
    {m : List (Nat × BitVec 16)} (start : P m) {x y : Nat} (hx : x < 1024) (hy : y < 512) :
    vramRead (scanRect area px py w h f m) x y =
      if inRect area px py w h x y then after x y (vramRead m x y) else vramRead m x y := by
  simp only [inRect_iff]
  refine (scanBox_pixel P after f (by omega) (by omega) (fun x y left right top bottom now keeps => ?_) m start).2 x y hx hy
  have inside := inArea_of_inRect ((inRect_iff area px py w h x y).2 ⟨left, right, top, bottom⟩)
  obtain ⟨hx, hy⟩ := inArea_lt inside
  obtain ⟨kept, written⟩ := visit x y inside now keeps
  exact ⟨kept, written, fun x' y' hx' hy' => own x y hx hy now x' y' hx' hy'⟩

/-- A pixel outside the rectangle, or outside the drawing area, is as it was. -/
theorem vramRead_scanRect_outside {area : DrawArea} {px py : Int} {w h : Nat}
    {f : Nat → Nat → List (Nat × BitVec 16) → List (Nat × BitVec 16)}
    (own : ∀ x y, x < 1024 → y < 512 → OwnPixelOnly x y (f x y)) (m : List (Nat × BitVec 16)) {x y : Nat}
    (hx : x < 1024) (hy : y < 512) (outside : inRect area px py w h x y = false) :
    vramRead (scanRect area px py w h f m) x y = vramRead m x y := by
  refine scanBox_keeps (fun now => vramRead now x y = vramRead m x y) (by omega) (by omega)
    (fun x' y' left right top bottom now same => ?_) m rfl
  have inside := (inRect_iff area px py w h x' y').2 ⟨left, right, top, bottom⟩
  obtain ⟨hx', hy'⟩ := inArea_lt (inArea_of_inRect inside)
  refine (own x' y' hx' hy' now x y hx hy ?_).trans same
  rintro ⟨rfl, rfl⟩
  cases inside.symm.trans outside

/-- In an area of one pixel a rectangle's scan visits that pixel alone, if the rectangle holds it. -/
theorem scanRect_onePixel {area : DrawArea} (one : OnePixel area) {px py : Int} {w h x y : Nat}
    (inside : inRect area px py w h x y = true) (f : Nat → Nat → List (Nat × BitVec 16) → List (Nat × BitVec 16))
    (m : List (Nat × BitVec 16)) : scanRect area px py w h f m = f x y m := by
  have column := congrArg BitVec.toNat one.1
  have row := congrArg BitVec.toNat one.2
  rw [inRect_iff] at inside
  rw [scanRect, scanBox_single (x := x) (y := y) (by omega) (by omega) (by omega) (by omega), if_pos inside]

/-! ## Untextured rectangles (R338 to R341, R346 to R349, R354 to R357, R362 to R365) -/

/-- An untextured rectangle paints its pixels in its one colour (R334). -/
theorem draws_rectShaded {i : Instr} {s : State} {raw semi : Bool} {c : Color} {v : Vertex} {w h : Nat}
    (run : exec i s = rectShaded raw semi c v w h s) : Draws i s (fun x y back =>
      if inRect s.drawArea (place v.x s.drawOffset.dx) (place v.y s.drawOffset.dy) w h x y
      then written (shadedCtx raw semi c s.semiOp) (quantisedPixel c.r.toNat c.g.toNat c.b.toNat) back else back) :=
  ⟨_, run, rfl, rfl, fun _ _ hx hy =>
    vramRead_scanRect (fun _ => True) (fun _ _ => written _ _) _ _ w h
      (fun _ _ hx hy => putPixel_ownPixelOnly _ _ hx hy) (fun _ _ _ _ _ => ⟨trivial, putPixel_same ..⟩) trivial hx hy⟩

/-- Settles O51: each row is `rectVar`. -/
theorem rectanglesOfVariableSizePaintTheirPixels : Obligations.RectanglesOfVariableSizePaintTheirPixels := by
  intro p s i raw semi row
  have run : exec i s = rectVar raw semi p s :=
    of_mem_four (P := fun r => exec r.1 s = rectVar r.2.1 r.2.2 p s) row rfl rfl rfl rfl
  exact draws_rectShaded run

/-- The row of an untextured rectangle of size `n` by `n`, with its flags `raw` and `semi`. -/
def IsSquare (p : RectFix) (s : State) (row : Instr × Nat × Bool × Bool) : Prop :=
  exec row.1 s = rectShaded row.2.2.1 row.2.2.2 p.c p.v row.2.1 row.2.1 s

/-- Settles O52: the four rows of each size code are `rectShaded` with the size it gives. -/
theorem rectanglesOfFixedSizePaintTheirPixels : Obligations.RectanglesOfFixedSizePaintTheirPixels := by
  intro p s i n raw semi row
  have run : IsSquare p s (i, n, raw, semi) :=
    of_mem_four_cons row rfl rfl rfl rfl fun size8 =>
      of_mem_four_cons size8 rfl rfl rfl rfl fun size16 => of_mem_four size16 rfl rfl rfl rfl
  exact draws_rectShaded run

/-! ## Textured rectangles (R342 to R345, R350 to R353, R358 to R361, R366 to R369) -/

/-- A texel coordinate of a rectangle is a byte (R333). -/
theorem rectTexel_lt (base : Byte) (p : Int) (x : Nat) : rectTexel base p x < 256 := by
  unfold rectTexel
  omega

/-- A texel is the same in two framebuffers that agree outside an area from which it is not read. -/
theorem textured_agree {area : DrawArea} {ctx : Ctx} {m0 m : List (Nat × BitVec 16)} (reads : ReadsOutside area ctx)
    (texels : ctx.rt ≠ .shaded) (agree : AgreeOutside area m0 m) {u v : Nat} (hu : u < 256) (hv : v < 256)
    (back : Half) : textured m ctx u v back = textured m0 ctx u v back := by
  unfold textured
  rw [sample_agree reads agree hu hv texels]

section Texels

variable {area : DrawArea} {ctx : Ctx} (px py : Int) (w h : Nat) (t : Uv) (m : List (Nat × BitVec 16)) {x y : Nat}
  (hx : x < 1024) (hy : y < 512)

/-- What a rectangle's visit of the pixel `(x, y)` draws: the texel counted from the corner `(px, py)` (R333). -/
def rectTexelPixel (ctx : Ctx) (px py : Int) (t : Uv) (x y : Nat) : List (Nat × BitVec 16) → List (Nat × BitVec 16) :=
  texturedPixel ctx x y (rectTexel t.u px x) (rectTexel t.v py y)

/-- What the texel sampled from `vram` leaves in the pixel `(x, y)` that held `back`. -/
def rectTexelPaint (vram : List (Nat × BitVec 16)) (ctx : Ctx) (px py : Int) (t : Uv) (x y : Nat) (back : Half) : Half :=
  textured vram ctx (rectTexel t.u px x) (rectTexel t.v py y) back

theorem rectTexelPixel_ownPixelOnly (ctx : Ctx) (x y : Nat) (hx : x < 1024) (hy : y < 512) :
    OwnPixelOnly x y (rectTexelPixel ctx px py t x y) :=
  texturedPixel_ownPixelOnly ctx _ _ hx hy

include hx hy

/-- Where a textured rectangle reads nothing of the drawing area, its texels are those of the framebuffer before it. -/
theorem vramRead_scanRect_of_readsOutside (texels : ctx.rt ≠ .shaded) (reads : ReadsOutside area ctx) :
    vramRead (scanRect area px py w h (rectTexelPixel ctx px py t) m) x y =
      if inRect area px py w h x y then rectTexelPaint m ctx px py t x y (vramRead m x y) else vramRead m x y := by
  have own := rectTexelPixel_ownPixelOnly px py t ctx
  refine vramRead_scanRect (AgreeOutside area m) (rectTexelPaint m ctx px py t) px py w h own
    (fun x y inside now agree => ?_) (StaysIn.refl area m) hx hy
  obtain ⟨left, top⟩ := inArea_lt inside
  refine ⟨fun x' y' hx' hy' outside => ?_, ?_⟩
  · exact ((own x y left top).staysIn inside now x' y' hx' hy' outside).trans (agree x' y' hx' hy' outside)
  · exact (texturedPixel_same ..).trans (textured_agree reads texels agree (rectTexel_lt ..) (rectTexel_lt ..) _)

/-- In an area of one pixel the texel is sampled before anything is drawn. -/
theorem vramRead_scanRect_of_onePixel (one : OnePixel area) :
    vramRead (scanRect area px py w h (rectTexelPixel ctx px py t) m) x y =
      if inRect area px py w h x y then rectTexelPaint m ctx px py t x y (vramRead m x y) else vramRead m x y := by
  split
  · rename_i inside
    rw [scanRect_onePixel one inside]
    exact texturedPixel_same ..
  · rename_i outside
    exact vramRead_scanRect_outside (rectTexelPixel_ownPixelOnly px py t ctx) m hx hy (Bool.eq_false_iff.2 outside)

end Texels

/-- A textured rectangle of a depth that is not reserved draws by its render type (R335). -/
theorem rectTextured_of_depthGives {s : State} {rt : RenderType} (depth : DepthGives s.texPage.depth rt) (op : BitVec 8)
    (raw semi : Bool) (c : Color) (v : Vertex) (t : Uv) (pal : Palette) (w h : Nat) :
    rectTextured op raw semi c v t pal w h s =
      .next (drawWith s (scanRect s.drawArea (place v.x s.drawOffset.dx) (place v.y s.drawOffset.dy) w h
        (rectTexelPixel ⟨rt, raw, semi, pal, s.texPage, c, s.semiOp⟩ (place v.x s.drawOffset.dx)
          (place v.y s.drawOffset.dy) t))) := by
  rw [rectTextured, depth.texturedType_eq]
  rfl

/-- A textured rectangle changes its own pixels only, and paints their texels where it does not read what it writes. -/
theorem drawsTextured_rect {i : Instr} {s : State} {op : BitVec 8} {raw semi : Bool} {c : Color} {v : Vertex} {t : Uv}
    {pal : Palette} {w h : Nat} {rt : RenderType} {ctx : Ctx} {px py : Int} (depth : DepthGives s.texPage.depth rt)
    (run : exec i s = rectTextured op raw semi c v t pal w h s)
    (context : ctx = ⟨rt, raw, semi, pal, s.texPage, c, s.semiOp⟩) (left : px = place v.x s.drawOffset.dx)
    (top : py = place v.y s.drawOffset.dy) :
    DrawsTextured i s ctx (fun x y => inRect s.drawArea px py w h x y) (fun x y back =>
      if inRect s.drawArea px py w h x y then rectTexelPaint s.vram ctx px py t x y back else back) := by
  subst context left top
  have texels := texturedType_ne_shaded depth.texturedType_eq
  refine ⟨_, run.trans (rectTextured_of_depthGives depth ..), rfl, rfl,
    fun x y hx hy => vramRead_scanRect_outside (rectTexelPixel_ownPixelOnly _ _ t _) s.vram hx hy, ?_⟩
  rintro (reads | one) x y hx hy
  · exact vramRead_scanRect_of_readsOutside _ _ w h t s.vram hx hy texels reads
  · exact vramRead_scanRect_of_onePixel _ _ w h t s.vram hx hy one

/-- Settles O53: each row is `rectVarTex` with its command byte. -/
theorem texturedRectanglesOfVariableSizePaintTheirTexels :
    Obligations.TexturedRectanglesOfVariableSizePaintTheirTexels := by
  intro p s i raw semi rt ctx px py row depth context left top
  obtain ⟨op, run⟩ : ∃ op, exec i s = rectVarTex op raw semi p s :=
    of_mem_four (P := fun r => ∃ op, exec r.1 s = rectVarTex op r.2.1 r.2.2 p s) row ⟨_, rfl⟩ ⟨_, rfl⟩ ⟨_, rfl⟩ ⟨_, rfl⟩
  exact drawsTextured_rect depth run context left top

/-- The row of a textured rectangle of size `n` by `n`, with its flags `raw` and `semi` and some command byte. -/
def IsTexturedSquare (p : RectFixTex) (s : State) (row : Instr × Nat × Bool × Bool) : Prop :=
  ∃ op, exec row.1 s = rectTextured op row.2.2.1 row.2.2.2 p.c p.v p.t p.pal row.2.1 row.2.1 s

/-- Settles O54: the four rows of each size code are `rectTextured` with the size it gives. -/
theorem texturedRectanglesOfFixedSizePaintTheirTexels : Obligations.TexturedRectanglesOfFixedSizePaintTheirTexels := by
  intro p s i n raw semi rt ctx px py row depth context left top
  obtain ⟨op, run⟩ : IsTexturedSquare p s (i, n, raw, semi) :=
    of_mem_four_cons row ⟨_, rfl⟩ ⟨_, rfl⟩ ⟨_, rfl⟩ ⟨_, rfl⟩ fun size8 =>
      of_mem_four_cons size8 ⟨_, rfl⟩ ⟨_, rfl⟩ ⟨_, rfl⟩ ⟨_, rfl⟩ fun size16 =>
        of_mem_four size16 ⟨_, rfl⟩ ⟨_, rfl⟩ ⟨_, rfl⟩ ⟨_, rfl⟩
  exact drawsTextured_rect depth run context left top

end Sys2Proof.Machine
end

section
/-! PROOFS. A rectangle as two triangles (47_rectangle.md R336): of the two directions of a side exactly one takes each
point, so the diagonal shares the rectangle's pixels out; texel coordinates that count along with the position interpolate
exactly. -/

namespace Sys2Proof.Machine

/-! ## What a side takes (45_triangle_raster.md R285, R286) -/

theorem takes_of_topLeft {p q : Vert} (top : topLeft p.x p.y q.x q.y = true) (x y : Int) :
    Takes x y p q ↔ 0 ≤ p.edgeTo q x y := by
  rw [Takes, top, le_iff_lt_or_eq, eq_comm (a := (0 : Int)), and_iff_left rfl]

theorem takes_of_not_topLeft {p q : Vert} (other : topLeft p.x p.y q.x q.y = false) (x y : Int) :
    Takes x y p q ↔ 0 < p.edgeTo q x y := by
  simp only [Takes, other, Bool.false_eq_true, and_false, or_false]

/-- Of the two directions of a side exactly one takes a point. -/
theorem takes_reverse {p q : Vert} (proper : (p.x, p.y) ≠ (q.x, q.y)) (x y : Int) :
    Takes x y q p ↔ ¬ Takes x y p q := by
  have reverse := topLeft_reverse proper
  cases top : topLeft p.x p.y q.x q.y <;> rw [top] at reverse
  · rw [takes_of_topLeft reverse, takes_of_not_topLeft top, Vert.edgeTo_reverse]
    omega
  · rw [takes_of_not_topLeft reverse, takes_of_topLeft top, Vert.edgeTo_reverse]
    omega

/-- A top edge takes its own row and the rows below. -/
theorem takes_of_rightward {p q : Vert} (level : q.y = p.y) (right : p.x < q.x) (x y : Int) :
    Takes x y p q ↔ p.y ≤ y := by
  have top : topLeft p.x p.y q.x q.y = true := by
    simp only [topLeft, Bool.or_eq_true, Bool.and_eq_true, decide_eq_true_eq]
    omega
  rw [takes_of_topLeft top, Vert.edgeTo, edge, level, sub_self, zero_mul, sub_zero,
    mul_nonneg_iff_of_pos_left (by omega), sub_nonneg]

/-- A left edge takes its own column and the columns to the right. -/
theorem takes_of_upward {p q : Vert} (upright : q.x = p.x) (up : q.y < p.y) (x y : Int) :
    Takes x y p q ↔ p.x ≤ x := by
  have left : topLeft p.x p.y q.x q.y = true := by
    simp only [topLeft, Bool.or_eq_true, Bool.and_eq_true, decide_eq_true_eq]
    omega
  rw [takes_of_topLeft left, Vert.edgeTo, edge, upright, sub_self, zero_mul, zero_sub, ← neg_mul, neg_sub,
    mul_nonneg_iff_of_pos_left (by omega), sub_nonneg]

/-- A triangle whose vertices turn the positive way covers what its sides take in their order. -/
theorem covers_iff_of_turn_pos {v0 v1 v2 : Vert} (pos : 0 < turn v0 v1 v2) (x y : Int) :
    covers v0 v1 v2 x y = true ↔ Sides (Takes x y) v0 v1 v2 :=
  (covers_iff_onSides ..).trans ⟨fun h => h.of_turn_pos pos, fun h => .inl ⟨pos, h⟩⟩

/-- A triangle whose vertices turn the other way covers what its sides take with the last two vertices swapped (R282). -/
theorem covers_iff_of_turn_neg {v0 v1 v2 : Vert} (neg : turn v0 v1 v2 < 0) (x y : Int) :
    covers v0 v1 v2 x y = true ↔ Sides (Takes x y) v0 v2 v1 := by
  rw [← covers_iff_of_turn_pos (by rw [turn_swap_last]; omega), covers_iff_onSides, covers_iff_onSides,
    onSides_swap_last]

/-! ## The pixels of a rectangle's two triangles -/

/-- The four corners of a rectangle, in the order of the vertices of a quad. -/
structure RectCorners (px py w h : Int) (a b d e : Vert) : Prop where
  wide : 0 < w
  high : 0 < h
  upperLeft : a.x = px ∧ a.y = py
  upperRight : b.x = px + w ∧ b.y = py
  lowerLeft : d.x = px ∧ d.y = py + h
  lowerRight : e.x = px + w ∧ e.y = py + h

namespace RectCorners

variable {px py w h : Int} {a b d e : Vert} (corners : RectCorners px py w h a b d e) (x y : Int)
include corners

/-- The upper triangle has the top and the left edge and the diagonal downwards. -/
theorem covers_upper : covers a b d x y = true ↔ py ≤ y ∧ Takes x y b d ∧ px ≤ x := by
  obtain ⟨wide, high, ⟨ax, ay⟩, ⟨bx, by'⟩, ⟨dx, dy⟩, -⟩ := corners
  have positive : 0 < turn a b d := by
    have : turn a b d = w * h := by
      unfold turn Vert.edgeTo edge
      rw [ax, ay, bx, by', dx, dy]
      ring
    exact this ▸ mul_pos wide high
  rw [covers_iff_of_turn_pos positive, Sides, takes_of_rightward (by omega) (by omega), ay,
    takes_of_upward (p := d) (q := a) (by omega) (by omega), dx]

/-- The lower triangle has the right and the bottom edge and the diagonal upwards. -/
theorem covers_lower : covers b d e x y = true ↔ x < px + w ∧ y < py + h ∧ ¬ Takes x y b d := by
  obtain ⟨wide, high, -, ⟨bx, by'⟩, ⟨dx, dy⟩, ⟨ex, ey⟩⟩ := corners
  have negative : turn b d e < 0 := by
    have : turn b d e = -(w * h) := by
      unfold turn Vert.edgeTo edge
      rw [bx, by', dx, dy, ex, ey]
      ring
    exact this ▸ neg_neg_of_pos (mul_pos wide high)
  have proper {p q : Vert} (apart : p.x ≠ q.x ∨ p.y ≠ q.y) : (p.x, p.y) ≠ (q.x, q.y) := by
    rwa [ne_eq, Prod.mk.injEq, not_and_or]
  rw [covers_iff_of_turn_neg negative, Sides, takes_reverse (p := e) (q := b) (proper (by omega)),
    takes_of_upward (by omega) (by omega), takes_reverse (p := d) (q := e) (proper (by omega)),
    takes_of_rightward (by omega) (by omega), takes_reverse (p := b) (q := d) (proper (by omega)), ex, dy, not_le, not_le]

/-- The diagonal downwards takes the points on the upper left of its line. -/
theorem takes_diagonal : Takes x y b d ↔ 0 < w * (py + h - y) - h * (x - px) := by
  obtain ⟨wide, high, -, ⟨bx, by'⟩, ⟨dx, dy⟩, -⟩ := corners
  have other : topLeft b.x b.y d.x d.y = false := by
    simp only [topLeft, Bool.or_eq_false_iff, Bool.and_eq_false_iff, decide_eq_false_iff_not]
    omega
  have value : b.edgeTo d x y = w * (py + h - y) - h * (x - px) := by
    unfold Vert.edgeTo edge
    rw [bx, by', dx, dy]
    ring
  rw [takes_of_not_topLeft other, value]

/-- A point of the diagonal's upper part below the top edge and right of the left edge is in the rectangle. -/
theorem bounds_of_takes (upper : Takes x y b d) (hx : px ≤ x) (hy : py ≤ y) : x < px + w ∧ y < py + h := by
  rw [corners.takes_diagonal] at upper
  obtain ⟨wide, high, -⟩ := corners
  constructor <;> by_contra beyond <;> nlinarith

/-- A point of the diagonal's lower part above the bottom edge and left of the right edge is in the rectangle. -/
theorem bounds_of_not_takes (lower : ¬ Takes x y b d) (hx : x < px + w) (hy : y < py + h) : px ≤ x ∧ py ≤ y := by
  rw [corners.takes_diagonal] at lower
  obtain ⟨wide, high, -⟩ := corners
  constructor <;> by_contra beyond <;> nlinarith

/-- The two triangles cover exactly the rectangle (R336). -/
theorem covers_either : covers a b d x y = true ∨ covers b d e x y = true ↔
    px ≤ x ∧ x ≤ px + w - 1 ∧ py ≤ y ∧ y ≤ py + h - 1 := by
  rw [corners.covers_upper, corners.covers_lower]
  by_cases side : Takes x y b d
  · have := corners.bounds_of_takes x y side
    simp only [side, not_true_eq_false, true_and, and_false, or_false]
    omega
  · have := corners.bounds_of_not_takes x y side
    simp only [side, not_false_eq_true, false_and, and_false, false_or, and_true]
    omega

/-- No pixel is covered by both (R336). -/
theorem not_covers_both : ¬ (covers a b d x y = true ∧ covers b d e x y = true) := by
  rw [corners.covers_upper, corners.covers_lower]
  rintro ⟨⟨-, upper, -⟩, -, -, lower⟩
  exact lower upper

end RectCorners

/-! ## Texels that count along with the position (46_pixel_pipeline.md R303) -/

/-- The weights of a point give its column as the mean of the vertices' columns. -/
theorem Tri.weighted_x {t : Tri} (twice : t.area = edge t.v0.x t.v0.y t.v1.x t.v1.y t.v2.x t.v2.y) (x y : Int) :
    t.v0.x * t.w0 x y + t.v1.x * t.w1 x y + t.v2.x * t.w2 x y = t.area * x := by
  rw [twice]; unfold Tri.w0 Tri.w1 Tri.w2 edge; ring

/-- The weights of a point give its row as the mean of the vertices' rows. -/
theorem Tri.weighted_y {t : Tri} (twice : t.area = edge t.v0.x t.v0.y t.v1.x t.v1.y t.v2.x t.v2.y) (x y : Int) :
    t.v0.y * t.w0 x y + t.v1.y * t.w1 x y + t.v2.y * t.w2 x y = t.area * y := by
  rw [twice]; unfold Tri.w0 Tri.w1 Tri.w2 edge; ring

/-- Bytes that differ from three coordinates by `k` interpolate to what differs by `k` from the coordinates' mean `z`. -/
theorem Tri.interpolate_shifted {t : Tri} (positive : 0 < t.area)
    (twice : t.area = edge t.v0.x t.v0.y t.v1.x t.v1.y t.v2.x t.v2.y) {x y : Int} (covered : t.inside x y = true)
    {z0 z1 z2 z k : Int} (mean : z0 * t.w0 x y + z1 * t.w1 x y + z2 * t.w2 x y = t.area * z) {c0 c1 c2 : Byte}
    (h0 : (c0.toNat : Int) = z0 + k) (h1 : (c1.toNat : Int) = z1 + k) (h2 : (c2.toNat : Int) = z2 + k) :
    (t.interpolate x y c0 c1 c2 : Int) = z + k := by
  obtain ⟨w0, w1, w2, weights⟩ := Tri.inside_weights twice covered
  have sum : (c0.toNat : Int) * t.w0 x y + (c1.toNat : Int) * t.w1 x y + (c2.toNat : Int) * t.w2 x y =
      t.area * (z + k) := by
    rw [h0, h1, h2, mul_add, ← mean, ← weights]
    ring
  have nonneg : 0 ≤ t.area * (z + k) := sum ▸ by positivity
  rw [Tri.interpolate, sum, Int.mul_ediv_cancel_left _ positive.ne',
    Int.toNat_of_nonneg (nonneg_of_mul_nonneg_right nonneg positive)]

/-- The texel coordinates of a vertex are its position moved by `(du, dv)`. -/
def Vert.TexelAt (du dv : Int) (v : Vert) : Prop := (v.t.u.toNat : Int) = v.x + du ∧ (v.t.v.toNat : Int) = v.y + dv

/-- Setup keeps its three vertices, so it keeps what holds of them (R282). -/
theorem setup_forall {P : Vert → Prop} {v0 v1 v2 : Vert} {t : Tri} (answer : setup v0 v1 v2 = some t) (h0 : P v0)
    (h1 : P v1) (h2 : P v2) : P t.v0 ∧ P t.v1 ∧ P t.v2 := by
  obtain ⟨-, -, first, ⟨second, third⟩ | ⟨second, third⟩⟩ := setup_spec answer <;> rw [first, second, third]
  · exact ⟨h0, h1, h2⟩
  · exact ⟨h0, h2, h1⟩

/-- A covered pixel's texel is its position moved as the vertices' texels are. -/
theorem interpolate_texelAt {v0 v1 v2 : Vert} {t : Tri} (answer : setup v0 v1 v2 = some t) {du dv : Int}
    (h0 : v0.TexelAt du dv) (h1 : v1.TexelAt du dv) (h2 : v2.TexelAt du dv) {x y : Int} (covered : t.inside x y = true) :
    (t.interpolate x y t.v0.t.u t.v1.t.u t.v2.t.u : Int) = x + du ∧
      (t.interpolate x y t.v0.t.v t.v1.t.v t.v2.t.v : Int) = y + dv := by
  obtain ⟨positive, twice, -⟩ := setup_spec answer
  obtain ⟨⟨u0, v0⟩, ⟨u1, v1⟩, ⟨u2, v2⟩⟩ := setup_forall answer h0 h1 h2
  exact ⟨Tri.interpolate_shifted positive twice covered (Tri.weighted_x twice x y) u0 u1 u2,
    Tri.interpolate_shifted positive twice covered (Tri.weighted_y twice x y) v0 v1 v2⟩

/-- A vertex whose texel coordinates are given as numbers below 256. -/
theorem texelAt_ofNat {x y du dv : Int} {u v : Nat} (hu : u ≤ 255) (hv : v ≤ 255) (column : (u : Int) = x + du)
    (row : (v : Int) = y + dv) (c : Color) : (Vert.mk x y c ⟨BitVec.ofNat 8 u, BitVec.ofNat 8 v⟩).TexelAt du dv := by
  rw [Vert.TexelAt, BitVec.toNat_ofNat, BitVec.toNat_ofNat, Nat.mod_eq_of_lt (by omega), Nat.mod_eq_of_lt (by omega)]
  exact ⟨column, row⟩

/-- Settles O58: the diagonal shares out the pixels (`RectCorners.covers_either`, `RectCorners.not_covers_both`), and the
texels of the corners count along with their positions. -/
theorem aRectangleIsItsTwoTriangles : Obligations.ARectangleIsItsTwoTriangles := by
  intro px py w h u0 v0 c a b d e wide high fitsU fitsV ha hb hd he
  have corners : RectCorners px py w h a b d e := by
    subst ha hb hd he
    exact ⟨by omega, by omega, ⟨rfl, rfl⟩, ⟨rfl, rfl⟩, ⟨rfl, rfl⟩, ⟨rfl, rfl⟩⟩
  refine ⟨corners.covers_either, corners.not_covers_both, fun t x y answer covered => ?_⟩
  have texelA : a.TexelAt (u0 - px) (v0 - py) := ha ▸ texelAt_ofNat (by omega) (by omega) (by omega) (by omega) c
  have texelB : b.TexelAt (u0 - px) (v0 - py) := hb ▸ texelAt_ofNat (by omega) (by omega) (by omega) (by omega) c
  have texelD : d.TexelAt (u0 - px) (v0 - py) := hd ▸ texelAt_ofNat (by omega) (by omega) (by omega) (by omega) c
  have texelE : e.TexelAt (u0 - px) (v0 - py) := he ▸ texelAt_ofNat (by omega) (by omega) (by omega) (by omega) c
  have texel : (t.interpolate x y t.v0.t.u t.v1.t.u t.v2.t.u : Int) = x + (u0 - px) ∧
      (t.interpolate x y t.v0.t.v t.v1.t.v t.v2.t.v : Int) = y + (v0 - py) := by
    rcases answer with upper | lower
    · exact interpolate_texelAt upper texelA texelB texelD covered
    · exact interpolate_texelAt lower texelB texelD texelE covered
  omega

end Sys2Proof.Machine
end

section
/-! PROOFS. The commands that draw nothing (48_line_env.md): a refused command word only raises its error and leaves the
fault mark, an environment command only sets its part of the environment. -/

namespace Sys2Proof.Machine

/-- The outcome is the error, the first error marked stays marked, and nothing else changes. -/
theorem refuseCommand_eq (e : BlockError) (s : State) :
    refuseCommand e s = { s with result := .error e, streamFault := some (s.streamFault.getD e) } := by
  unfold refuseCommand State.markFault State.raise
  cases s.streamFault <;> rfl

/-- Settles O43: every row is `refuseCommand` with its error. -/
theorem refusedCommandWordsRaiseTheirError : Obligations.RefusedCommandWordsRaiseTheirError := by
  intro r op arg s i e row
  have run : exec i s = .next (refuseCommand e s) :=
    of_mem_four_cons (P := fun row => exec row.1 s = .next (refuseCommand row.2 s)) row rfl rfl rfl rfl fun others => by
      rcases List.mem_pair.1 others with last | last <;> cases last <;> rfl
  rw [run, refuseCommand_eq]

/-- Settles O44: each environment command is an update of its own fields. -/
theorem environmentCommandsSetTheEnvironment : Obligations.EnvironmentCommandsSetTheEnvironment :=
  fun _ _ _ _ _ _ _ => ⟨rfl, rfl, rfl, rfl⟩

end Sys2Proof.Machine
end

section
/-! PROOFS. The mirrors (20_memory.md R75, 60_exceptions.md R410): the block's registers lie below the mirrors, so the
decoder finds the same masked address through each; of an access only an unmapped offset keeps its mirror. -/

namespace Sys2Proof.Machine

/-- The block's registers lie below the top three address bits. -/
theorem AtRegister.eq_low {m : Word} (own : AtRegister m) : m = 0#3 ++ m.extractLsb' 0 29 := by
  rw [AtRegister, inDmaWindow_iff, inGp0Word_iff] at own
  have high : m.extractLsb' 29 3 = 0#3 := by
    apply BitVec.eq_of_toNat_eq
    rw [BitVec.extractLsb'_toNat, Nat.shiftRight_eq_div_pow, BitVec.toNat_ofNat]
    omega
  rw [← high, top_append_low]

/-- A register's address through a mirror is masked to the register's address. -/
theorem AtRegister.maskAddr_mirror {m : Word} (own : AtRegister m) (seg : Segment) : maskAddr (seg.bits ||| m) = m := by
  rw [own.eq_low, segmentBits_or, maskAddr_bits_append]

/-- The address of the window selects no register: word 3 of a channel or of the global registers, or word 2 of these
(R77, 40_dma_registers.md R161). -/
def SelectsNone (m : Word) : Prop :=
  3 ≤ (m.extractLsb' 2 2).toNat ∨
    ((m.extractLsb' 2 2).toNat = 2 ∧ Chan.ofNum (m.extractLsb' 4 3).toNat = none)

/-- An access that selects no register is unmapped and keeps its mirror; every other access of the window does not depend on
the mirror and is not unmapped. -/
theorem dmaAccess_cases (op : BusOp) (m v : Word) :
    (SelectsNone m ∧ ∃ off d, ∀ seg, dmaAccess seg op m v = .dmaUnmapped seg off op d) ∨
    ∃ i, (∀ seg, dmaAccess seg op m v = i) ∧ ∀ seg off op' d, i ≠ .dmaUnmapped seg off op' d := by
  unfold dmaAccess SelectsNone
  generalize (m.extractLsb' 2 2).toNat = k
  cases Chan.ofNum (m.extractLsb' 4 3).toNat with
  | some ch =>
    match k with
    | 0 | 1 | 2 => cases op <;> exact .inr ⟨_, fun _ => rfl, nofun⟩
    | k + 3 => cases op <;> exact .inl ⟨.inl (by omega), _, _, fun _ => rfl⟩
  | none =>
    match k with
    | 0 | 1 => cases op <;> exact .inr ⟨_, fun _ => rfl, nofun⟩
    | 2 => cases op <;> exact .inl ⟨.inr ⟨rfl, rfl⟩, _, _, fun _ => rfl⟩
    | k + 3 => cases op <;> exact .inl ⟨.inl (by omega), _, _, fun _ => rfl⟩

/-- The access of the address `m` below the mirrors decodes the same through every mirror, and not as unmapped. -/
def SameThroughMirrors (op : BusOp) (m : Word) (width : Width) (v : Word) : Prop :=
  ∃ r, (∀ seg : Segment, decode (.reg ⟨op, seg.bits ||| m, width, v⟩) = r) ∧
    ∀ seg off d, r ≠ .ok (.dmaUnmapped seg off op d)

/-- An access of the block's registers decodes the same through every mirror, or as the same unmapped offset with its
mirror. -/
theorem AtRegister.decode_mirrors {m : Word} (own : AtRegister m) (op : BusOp) (width : Width) (v : Word) :
    SameThroughMirrors op m width v ∨
      ∃ off d, ∀ seg : Segment, decode (.reg ⟨op, seg.bits ||| m, width, v⟩) = .ok (.dmaUnmapped seg off op d) := by
  have masked := own.maskAddr_mirror
  have own' (seg : Segment) : AtRegister (maskAddr (seg.bits ||| m)) := by rwa [masked]
  by_cases word : width = .word
  case neg => exact .inl ⟨_, fun seg => decodeReg_wrongWidth (own' seg) word, nofun⟩
  by_cases aligned : m.toNat % 4 = 0
  case neg => exact .inl ⟨_, fun seg => decodeReg_unaligned (own' seg) word (by rwa [masked]), nofun⟩
  rcases own with window | gp0
  · subst word
    have decoded (seg : Segment) := decode_dmaWindow seg op v window aligned
    rcases dmaAccess_cases op m v with ⟨-, off, d, unmapped⟩ | ⟨i, same, mapped⟩
    · exact .inr ⟨off, d, fun seg => (decoded seg).trans (congrArg _ (unmapped seg))⟩
    · exact .inl ⟨_, fun seg => (decoded seg).trans (congrArg _ (same seg)),
        fun seg off d h => mapped seg off op d (Except.ok.inj h)⟩
  · have gp0' (seg : Segment) : inGp0Word (maskAddr (seg.bits ||| m)) = true := by rwa [masked]
    have aligned' (seg : Segment) : (maskAddr (seg.bits ||| m)).toNat % 4 = 0 := by rwa [masked]
    cases op with
    | read => exact .inl ⟨_, fun seg => decodeReg_gp0_read (gp0' seg) word (aligned' seg) rfl, nofun⟩
    | write =>
      exact .inl ⟨.ok (.gp0Wr v), fun seg =>
        decodeReg_gp0_write (a := ⟨.write, seg.bits ||| m, width, v⟩) (gp0' seg) word (aligned' seg) rfl, nofun⟩

/-- Settles O5: KUSEG is the mirror that adds no bits. -/
theorem theThreeMirrorsReachTheSameRegisters : Obligations.TheThreeMirrorsReachTheSameRegisters := by
  intro seg m op width v own
  have noBits : Segment.kuseg.bits ||| m = m := BitVec.zero_or
  rcases AtRegister.decode_mirrors own op width v with ⟨r, same, mapped⟩ | ⟨off, d, unmapped⟩
  · have below := same .kuseg
    rw [noBits] at below
    exact .inl ⟨(same seg).trans below.symm, below ▸ mapped⟩
  · have below := unmapped .kuseg
    rw [noBits] at below
    exact .inr ⟨off, d, unmapped seg, below⟩

end Sys2Proof.Machine
end

section
/-! PROOFS. Refused accesses (60_exceptions.md R392): only a refusal of the bus ends in a `BusError`; what a register access
sets going ends in a result or in an error of another kind. -/

namespace Sys2Proof.Machine

/-! ## Outcomes other than a bus error -/

/-- The access has ended in a `BusError`. -/
def AccessResult.isBusError : AccessResult → Bool
  | .error (.bus _ _ _ _) => true
  | _ => false

/-- The operation ends in a next state, with another outcome than a `BusError`. -/
def EndsOtherwise (o : Out) : Prop := ∃ t, o = .next t ∧ t.result.isBusError = false

theorem EndsOtherwise.thenIfOk {o : Out} {f : State → Out} (first : EndsOtherwise o) (rest : ∀ s, EndsOtherwise (f s)) :
    EndsOtherwise (thenIfOk o f) := by
  obtain ⟨t, rfl, other⟩ := first
  rw [thenIfOk_next]
  split
  · exact ⟨t, rfl, other⟩
  · exact rest t

theorem EndsOtherwise.mapNext {o : Out} {f : State → State} (h : EndsOtherwise o)
    (keeps : ∀ s, (f s).result = s.result) : EndsOtherwise (mapNext o f) := by
  obtain ⟨t, rfl, other⟩ := h
  exact ⟨f t, rfl, by rwa [keeps]⟩

/-! ## GP0 commands and words -/

theorem polygonTextured_endsOtherwise (op : BitVec 8) (raw semi : Bool) (c : Color) (tex : TexInfo) (v0 v1 v2 : Vert)
    (v3 : Option Vert) (s : State) : EndsOtherwise (polygonTextured op raw semi c tex v0 v1 v2 v3 s) := by
  unfold polygonTextured
  split <;> exact ⟨_, rfl, rfl⟩

theorem rectTextured_endsOtherwise (op : BitVec 8) (raw semi : Bool) (c : Color) (v : Vertex) (t : Uv) (pal : Palette)
    (w h : Nat) (s : State) : EndsOtherwise (rectTextured op raw semi c v t pal w h s) := by
  unfold rectTextured
  split <;> exact ⟨_, rfl, rfl⟩

theorem execCommand_endsOtherwise {i : Instr} (gp0 : isGp0 i = true) (s : State) : EndsOtherwise (execCommand i s) := by
  cases i
  case triFT | triFTR | triFTS | triFTSR | quadFT | quadFTR | quadFTS | quadFTSR | triGT | triGTR | triGTS | triGTSR |
      quadGT | quadGTR | quadGTS | quadGTSR =>
    exact polygonTextured_endsOtherwise ..
  case rectVT | rectVTR | rectVTS | rectVTSR | rect1T | rect1TR | rect1TS | rect1TSR | rect8T | rect8TR | rect8TS |
      rect8TSR | rect16T | rect16TR | rect16TS | rect16TSR =>
    exact rectTextured_endsOtherwise ..
  case dmaWrBase | dmaWrBlock | dmaWrChctl | dmaRdBase | dmaRdBlock | dmaRdChctl | dmaWrControl | dmaWrInterrupt |
      dmaRdControl | dmaRdInterrupt | dmaUnmapped | gp0Wr | xferBlockFromram | xferBlockToram | xferBlockOtc | xferList |
      xferInvalid | llNext | llEnd =>
    cases gp0
  all_goals exact ⟨_, rfl, rfl⟩

theorem executeWords_endsOtherwise (w0 : Word) (args : List Word) (s : State) :
    EndsOtherwise (executeWords w0 args s) := by
  unfold executeWords
  split
  · exact execCommand_endsOtherwise (commandOf_isGp0 (decode_gp0_eq_ok_iff.1 ‹_›)) s
  · exact ⟨_, rfl, rfl⟩

theorem pushGp0_endsOtherwise (w : Word) (s : State) : EndsOtherwise (pushGp0 w s) := by
  unfold pushGp0
  split
  · split
    · exact execCommand_endsOtherwise (refusedCommand_isGp0 w) s
    · split
      · exact executeWords_endsOtherwise ..
      · exact ⟨_, rfl, rfl⟩
  · split
    · exact ⟨_, rfl, rfl⟩
    · split
      · exact executeWords_endsOtherwise ..
      · exact ⟨_, rfl, rfl⟩

theorem transferPush_endsOtherwise (w : Word) (s : State) : EndsOtherwise (transferPush w s) := by
  refine (pushGp0_endsOtherwise w s).mapNext fun t => ?_
  obtain ⟨m, same⟩ := markTransferFault_eq t
  rw [same]

/-! ## Transfers -/

theorem sendToPort_endsOtherwise (ch : Chan) (w : Word) (s : State) : EndsOtherwise (sendToPort ch w s) := by
  unfold sendToPort
  split
  · exact transferPush_endsOtherwise w s
  · exact ⟨_, rfl, rfl⟩

theorem transferFinished_endsOtherwise (ch : Chan) (s : State) : EndsOtherwise (.next (transferFinished ch s)) :=
  ⟨_, rfl, congrArg AccessResult.isBusError (transferFinished_result ch s)⟩

theorem blockFromRam_endsOtherwise (ch : Chan) (step : Word) (n : Nat) (addr : Word) (s : State) :
    EndsOtherwise (blockFromRam ch step n addr s) := by
  induction n generalizing addr s with
  | zero => exact transferFinished_endsOtherwise ch s
  | succ n ih => exact (sendToPort_endsOtherwise ..).thenIfOk (ih _)

theorem blockToRam_endsOtherwise (ch : Chan) (step : Word) (n : Nat) (addr : Word) (s : State) :
    EndsOtherwise (.next (blockToRam ch step n addr s)) := by
  induction n generalizing addr s with
  | zero => exact transferFinished_endsOtherwise ch s
  | succ n ih => exact ih ..

theorem pushPayload_endsOtherwise (addr : Word) (n k : Nat) (s : State) : EndsOtherwise (pushPayload addr n k s) := by
  induction n generalizing k s with
  | zero => exact ⟨_, rfl, rfl⟩
  | succ n ih => exact (transferPush_endsOtherwise ..).thenIfOk (ih _)

theorem execLlEnd_endsOtherwise (size : Byte) (next : BitVec 23) (s : State) : EndsOtherwise (execLlEnd size next s) :=
  (pushPayload_endsOtherwise ..).thenIfOk fun t => transferFinished_endsOtherwise .gpu t

/-- The cursor moves only where the payload has succeeded, and keeps its outcome. -/
theorem execLlNext_endsOtherwise (size : Byte) (next : BitVec 23) (s : State) :
    EndsOtherwise (execLlNext size next s) := by
  obtain ⟨t, pushed, other⟩ := pushPayload_endsOtherwise s.listAddr size.toNat 1 s
  rw [execLlNext, pushed, thenIfOk_next]
  split
  · exact ⟨t, rfl, other⟩
  · exact ⟨_, rfl, other⟩

theorem walkList_endsOtherwise (cap : Nat) (s : State) : EndsOtherwise (walkList cap s) := by
  induction cap generalizing s with
  | zero => exact ⟨_, rfl, rfl⟩
  | succ cap ih =>
    unfold walkList
    dsimp only
    split
    · exact execLlEnd_endsOtherwise ..
    · exact (execLlNext_endsOtherwise ..).thenIfOk ih

theorem linkedList_endsOtherwise (cap : Nat) (s : State) : EndsOtherwise (linkedList cap s) :=
  (walkList_endsOtherwise ..).mapNext fun _ => rfl

theorem doTransfer_endsOtherwise (ch : Chan) (s : State) : EndsOtherwise (doTransfer ch s) := by
  unfold doTransfer
  dsimp only
  split
  · exact blockFromRam_endsOtherwise ..
  · exact blockToRam_endsOtherwise ..
  · exact transferFinished_endsOtherwise ..
  · exact linkedList_endsOtherwise ..
  · exact ⟨_, rfl, rfl⟩

theorem trigger_endsOtherwise (ch : Chan) (s : State) : EndsOtherwise (trigger ch s) := by
  unfold trigger
  split
  · exact doTransfer_endsOtherwise ch s
  · exact ⟨_, rfl, rfl⟩

/-! ## Instructions -/

/-- Of all instructions only `DMA.UNMAPPED` ends in a `BusError`. -/
theorem exec_endsOtherwise {i : Instr} (mapped : ∀ seg off op v, i ≠ .dmaUnmapped seg off op v) (s : State) :
    EndsOtherwise (exec i s) := by
  by_cases gp0 : isGp0 i = true
  · rw [exec_gp0 gp0]
    exact execCommand_endsOtherwise gp0 s
  cases i
  case dmaUnmapped => exact absurd rfl (mapped _ _ _ _)
  case dmaWrBase | dmaWrBlock | dmaWrChctl => exact trigger_endsOtherwise ..
  case gp0Wr => exact pushGp0_endsOtherwise ..
  case xferBlockFromram => exact blockFromRam_endsOtherwise ..
  case xferBlockToram => exact blockToRam_endsOtherwise ..
  case xferBlockOtc => exact transferFinished_endsOtherwise ..
  case xferList => exact linkedList_endsOtherwise ..
  case llNext => exact execLlNext_endsOtherwise ..
  case llEnd size next => exact execLlEnd_endsOtherwise size next s
  case dmaRdBase | dmaRdBlock | dmaRdChctl | dmaWrControl | dmaWrInterrupt | dmaRdControl | dmaRdInterrupt |
      xferInvalid =>
    exact ⟨_, rfl, rfl⟩
  all_goals exact absurd rfl gp0

/-! ## Accesses of the bus -/

/-- The access ends in a `BusError` only as a refusal, which carries the access and changes nothing else. -/
def RefusesCleanly (a : Access) (s : State) (o : Out) : Prop :=
  ∀ t, o = .next t → t.result.isBusError = true → ∃ k, t = busError k a s

theorem EndsOtherwise.refusesCleanly {o : Out} (h : EndsOtherwise o) (a : Access) (s : State) :
    RefusesCleanly a s o := by
  obtain ⟨t, rfl, other⟩ := h
  intro u answer refused
  cases answer
  cases other.symm.trans refused

theorem RefusesCleanly.of_busError (k : BusErrorKind) (a : Access) (s : State) :
    RefusesCleanly a s (.next (busError k a s)) := by
  intro t answer _
  cases answer
  exact ⟨k, rfl⟩

theorem busOther_refusesCleanly (a : Access) (s : State) : RefusesCleanly a s (busOther a s) := by
  intro t answer refused
  unfold busOther at answer
  dsimp only at answer
  generalize busTarget (maskAddr a.addr) = target at answer
  cases target with
  | unmapped | ioOther => exact RefusesCleanly.of_busError .unmapped a s t answer refused
  | ram | expansion1 | cacheControl =>
    dsimp only at answer
    split at answer
    · exact RefusesCleanly.of_busError .unaligned a s t answer refused
    · split at answer <;> cases answer <;> cases refused
  | bios =>
    dsimp only at answer
    split at answer
    · exact RefusesCleanly.of_busError .unaligned a s t answer refused
    · cases answer

theorem rejectedAccess_refusesCleanly (r : Reject) (a : Access) (s : State) :
    RefusesCleanly a s (rejectedAccess r a s) := by
  cases r with
  | busError k => exact .of_busError k a s
  | notRegister | notEnabled | length => exact busOther_refusesCleanly a s

/-- An address of the DMA window that selects no register is one of `DMA.UNMAPPED`'s offsets. -/
theorem SelectsNone.offset {m : Word} (selects : SelectsNone m) (aligned : m.toNat % 4 = 0) :
    m.toNat % 16 = 12 ∨ m.toNat % 128 = 0x78 := by
  have global {k : Nat} (number : Chan.ofNum k = none) : 7 ≤ k := by
    by_contra low
    obtain ⟨ch, rfl⟩ := exists_chan_num (k := k) (by omega)
    cases ch <;> cases number
  unfold SelectsNone at selects
  rw [BitVec.extractLsb'_toNat, BitVec.extractLsb'_toNat, Nat.shiftRight_eq_div_pow,
    Nat.shiftRight_eq_div_pow] at selects
  rcases selects with last | ⟨word, number⟩
  · omega
  · have := global number
    omega

/-- An access that decodes to `DMA.UNMAPPED` is an aligned word access of the window that selects no register. -/
theorem decodeReg_dmaUnmapped {a : Access} {seg : Segment} {off : UnmappedOffset} {op : BusOp} {d : Word}
    (h : decodeReg a = .ok (.dmaUnmapped seg off op d)) : inDmaWindow (maskAddr a.addr) = true ∧ a.width = .word ∧
      (maskAddr a.addr).toNat % 4 = 0 ∧ SelectsNone (maskAddr a.addr) := by
  by_cases own : AtRegister (maskAddr a.addr)
  case neg => cases (decodeReg_notRegister own).symm.trans h
  by_cases width : a.width = .word
  case neg => cases (decodeReg_wrongWidth own width).symm.trans h
  by_cases aligned : (maskAddr a.addr).toNat % 4 = 0
  case neg => cases (decodeReg_unaligned own width aligned).symm.trans h
  rcases own with window | gp0
  · have access := Except.ok.inj ((decodeReg_dmaWindow window width aligned).symm.trans h)
    rcases dmaAccess_cases a.op (maskAddr a.addr) a.data with ⟨selects, -⟩ | ⟨i, same, mapped⟩
    · exact ⟨window, width, aligned, selects⟩
    · exact absurd ((same _).symm.trans access) (mapped _ _ _ _)
  · cases direction : a.op with
    | read => cases (decodeReg_gp0_read gp0 width aligned direction).symm.trans h
    | write => cases (decodeReg_gp0_write gp0 width aligned direction).symm.trans h

/-- An unmapped offset of the window is refused as issued, and every other instruction ends otherwise. -/
theorem exec_refusesCleanly {a : Access} {i : Instr} (decoded : decodeReg a = .ok i) (s : State) :
    RefusesCleanly a s (exec i s) := by
  by_cases mapped : ∀ seg off op v, i ≠ .dmaUnmapped seg off op v
  · exact (exec_endsOtherwise mapped s).refusesCleanly a s
  · push Not at mapped
    obtain ⟨seg, off, op, v, rfl⟩ := mapped
    obtain ⟨window, width, aligned, selects⟩ := decodeReg_dmaUnmapped decoded
    have refused : RefusedAs .unmapped a s := refusedAs_unmapped_of_dmaWindow window width (selects.offset aligned) s
    rw [← runEvent_bus_ok decoded, refused]
    exact .of_busError .unmapped a s

theorem runEvent_bus_refusesCleanly (a : Access) (s : State) : RefusesCleanly a s (runEvent (.bus a) s) := by
  cases decoded : decodeReg a with
  | ok i =>
    rw [runEvent_bus_ok decoded]
    exact exec_refusesCleanly decoded s
  | error r =>
    rw [runEvent_bus_error decoded]
    exact rejectedAccess_refusesCleanly r a s

/-- Settles O18: an access that ends in a `BusError` has been refused, and the refusal's kind is the error's. -/
theorem aRefusedAccessChangesNothing : Obligations.ARefusedAccessChangesNothing := by
  intro a s t k addr width op answer result
  obtain ⟨k', rfl⟩ := runEvent_bus_refusesCleanly a s t answer (by rw [result]; rfl)
  cases result
  rfl

end Sys2Proof.Machine
end

section
/-! PROOFS. The unit of progress (60_exceptions.md R390, 70_reset_and_hazards.md R440, R441): every instruction ends in a next
state, and a step is the oldest event's instruction. -/

namespace Sys2Proof.Machine

/-- Settles O7: it is `exec_completes`. -/
theorem everyInstructionEndsInANextState : Obligations.EveryInstructionEndsInANextState := exec_completes

theorem step_of_pending {s : State} {e : HostEvent} {rest : List HostEvent} (pending : s.pending = e :: rest) :
    step s = runEvent e { s with pending := rest } := by
  unfold step
  rw [pending]

theorem step_of_idle {s : State} (idle : s.pending = []) : step s = .next s := by
  unfold step
  rw [idle]

/-- A word vector that decodes at the Rasterizer's own entry runs as its instruction (43_gp0_ingress.md R219). -/
theorem runEvent_execute_ok {w0 : Word} {args : List Word} {i : Instr} (decoded : decode (.gp0 w0 args) = .ok i)
    (s : State) : runEvent (.execute w0 args) s = exec i s := by
  simp only [runEvent, decoded]

/-- Settles O6: the oldest event is taken, and it runs the instruction that it decodes to. -/
theorem aStepRunsTheDecodedInstruction : Obligations.AStepRunsTheDecodedInstruction :=
  fun _ _ =>
    ⟨fun _ _ pending decoded => (step_of_pending pending).trans (runEvent_bus_ok decoded _),
      fun _ _ _ pending decoded => (step_of_pending pending).trans (runEvent_execute_ok decoded _), step_of_idle⟩

end Sys2Proof.Machine
end
